-- ==== Sys2Proof/Word.lean ====
section
/-! DEFINITION. The words of AttinyScore CORE: bytes, line levels, the index of a two-element register
array and the two fixed-size arrays of the spec (00_scope.md R11, R12; 10_state.md R20). -/

namespace Sys2Proof

/-- A byte: a command byte, a segment byte, the operand of encodeDigit (00_scope.md R11). -/
abbrev Byte := BitVec 8

/-- The level of a line, or the value of an acknowledgment sample: 0 or 1 (00_scope.md R14; 10_state.md R34). -/
inductive Level where
  | low    -- 0: a pressed button, an acknowledged byte
  | high   -- 1
deriving DecidableEq, Repr, Inhabited

/-- The level a bit is sent as: 1 is high (40_wire_protocol.md R133). -/
def Level.ofBool (b : Bool) : Level := if b then .high else .low

/-- The index in {0,1} of a two-element register array: a button index or a side index (00_scope.md R12). -/
inductive Idx where
  | zero   -- button 0; side 0 = Left
  | one    -- button 1; side 1 = Right
deriving DecidableEq, Repr, Inhabited

/-- A two-element register array `r[0]`, `r[1]` (00_scope.md R12). -/
structure Duo (α : Type) where
  at0 : α
  at1 : α
deriving DecidableEq, Repr

/-- `r[b]` as a read (00_scope.md R12). -/
def Duo.get {α : Type} (r : Duo α) : Idx → α
  | .zero => r.at0
  | .one => r.at1

/-- `r[b] <- v` as a write (00_scope.md R12). -/
def Duo.set {α : Type} (r : Duo α) (b : Idx) (v : α) : Duo α :=
  match b with
  | .zero => { r with at0 := v }
  | .one => { r with at1 := v }

/-- Four things, one per display position, position 0 leftmost (10_state.md R38; 20_memory.md R62). -/
structure Quad (α : Type) where
  p0 : α
  p1 : α
  p2 : α
  p3 : α
deriving DecidableEq, Repr

/-- The four in the order they are sent, leftmost first (20_memory.md R68). -/
def Quad.toList {α : Type} (f : Quad α) : List α := [f.p0, f.p1, f.p2, f.p3]

/-- A display frame: 4 segment bytes (00_scope.md R18; 10_state.md R38). -/
abbrev Frame := Quad Byte

end Sys2Proof
end

