-- ==== Sys2Proof/Config.lean ====
section
/-! DEFINITION. The parameters of 00_scope.md R9 that a model takes as an argument, the constraints of R10, and
the free values: the draws of the environment (00_scope.md R14, 10_state.md R34, R39) that no rule constrains. -/

namespace Sys2Proof

/-- BTN_POLICY: which button policy the Button Input State Machine implements (00_scope.md R3, R9). -/
inductive BtnPolicy where
  | edge
  | hold
deriving DecidableEq, Repr

/-- The configuration record of 00_scope.md R9. It is carried in State and no step changes it, so that every
statement over all states is one over all configurations (log entry 1). -/
structure Config where
  tickBits       : Nat         -- TICK_BITS, OPEN: width of `now` and `stateTime`
  policy         : BtnPolicy   -- BTN_POLICY
  debounce       : Nat         -- DEBOUNCE
  longPress      : Nat         -- LONG_PRESS
  holdThreshold  : Nat         -- HOLD_THRESHOLD
  repeatInterval : Nat         -- REPEAT_INTERVAL
  stateDuration  : Nat         -- STATE_DURATION
  blinkPeriod    : Nat         -- BLINK_PERIOD
  blinkOn        : Nat         -- BLINK_ON
  scoreMax       : Fin 100     -- SCORE_MAX, within SCORE_FLOOR .. SCORE_CEIL by its type
  snapHigh       : Fin 100     -- SNAP_HIGH
  brightDim      : BitVec 3    -- BRIGHT_DIM
  brightNormal   : BitVec 3    -- BRIGHT_NORMAL
  sepDot         : Quad Bool   -- SEP_DOT_POS, as the four membership bits of positions 0..3
  segOverflow    : Frame       -- SEG_OVERFLOW
deriving DecidableEq, Repr

namespace Config

/-- The default column of 00_scope.md R9; TICK_BITS is OPEN there and 16 in its test vectors. -/
def default : Config where
  tickBits := 16
  policy := .edge
  debounce := 50
  longPress := 500
  holdThreshold := 500
  repeatInterval := 200
  stateDuration := 2000
  blinkPeriod := 500
  blinkOn := 250
  scoreMax := 20
  snapHigh := 20
  brightDim := 0
  brightNormal := 7
  sepDot := ⟨false, true, false, false⟩
  segOverflow := ⟨0x40, 0x40, 0x40, 0x40⟩

/-- DUR_MAX = 2^DUR_BITS - 1 with DUR_BITS = 16 (00_scope.md R9). -/
def durMax : Nat := 65535

/-- The constraints among parameters: 00_scope.md R10 and the constraint column of R9. "A model should refuse a
configuration that violates one." Levels and scores are in range by their types. -/
def ok (c : Config) : Bool :=
  decide (12 ≤ c.tickBits) && decide (1 ≤ c.debounce) && decide (c.debounce ≤ c.longPress)
    && decide (c.longPress ≤ durMax) && decide (c.debounce ≤ c.holdThreshold)
    && decide (1 ≤ c.repeatInterval) && decide (c.holdThreshold + c.repeatInterval ≤ durMax)
    && decide (0 < c.blinkOn) && decide (c.blinkOn < c.blinkPeriod)
    && decide (c.blinkPeriod < 2 ^ c.tickBits) && decide (c.stateDuration < 2 ^ c.tickBits)
    && decide (c.brightDim ≠ c.brightNormal)

/-- FREE VALUE (log entry 5): the data-line level at the n-th acknowledgment sample (40_wire_protocol.md R134, U1). -/
opaque freeAck : Nat → Level

/-- FREE VALUE (log entry 7): whether the n-th undirected step is a TICK step (20_memory.md R75, U11). -/
opaque freeTick : Nat → Bool

/-- FREE VALUE (log entry 7): the level of a button line at the n-th undirected step (10_state.md R34, U5). -/
opaque freeButton : Nat → Idx → Level

/-- FREE VALUE (log entry 6): byte `a` of the peer's display memory where no rule says what it holds (U9). -/
opaque freePeerByte : Nat → Nat → Byte

/-- FREE VALUE (log entry 6): the peer's on bit where no rule says what it is (U9). -/
opaque freePeerOn : Nat → Bool

/-- FREE VALUE (log entry 6): the peer's brightness where no rule says what it is (U9). -/
opaque freePeerBright : Nat → BitVec 3

/-- FREE VALUE (log entry 6): the peer's address pointer where no rule says what it is (U9). -/
opaque freePeerAddr : Nat → BitVec 4

/-- FREE VALUE (log entry 6): the peer's address mode where no rule says what it is (U9). -/
opaque freePeerAutoInc : Nat → Bool

end Config

end Sys2Proof
end

