-- ==== Sys2Proof/Syntax.lean ====
section
/-! DEFINITION. The operations of the block: one constructor per row of spec/opcode_table.json (30_encoding.md
R110), and the form in which an operation is presented to the model: a table format and bytes. -/

namespace Sys2Proof

/-- One constructor per row of spec/opcode_table.json, in the table's order. An operand the spec bounds
(position, level, byte list) is carried unbounded, so that the out-of-range operand the spec refuses
(20_memory.md R69) can be presented and is refused. -/
inductive Instr where
  -- the wire primitives, a transaction and a frame (40_wire_protocol.md)
  | start                                  -- START, R131
  | stop                                   -- STOP, R132
  | wrbyte (v : Byte) (k : Level)          -- WRBYTE, R133 to R135; k is the K of `abcdefghK`, R90
  | txn (bytes : List Byte)                -- TXN, R136
  | sendSegments (p : Byte) (d : List Byte)  -- SENDSEGMENTS, R137
  -- the command bytes (30_encoding.md)
  | cmdDataAutoinc                         -- CMD_DATA_AUTOINC, R93
  | cmdAddr (p : BitVec 2)                 -- CMD_ADDR, R94
  | cmdCtrl (l : BitVec 3)                 -- CMD_CTRL, R95
  -- the segment bytes and the digit encoder (30_encoding.md, 41_display_driver.md)
  | segmentByte (b : Byte)                 -- SEGMENT_BYTE, R96, R97
  | encodeDigit (d : Byte)                 -- ENCODEDIGIT, R160
  | glyph0                                 -- GLYPH_0 .. GLYPH_9, R98
  | glyph1
  | glyph2
  | glyph3
  | glyph4
  | glyph5
  | glyph6
  | glyph7
  | glyph8
  | glyph9
  | glyphMinus                             -- GLYPH_MINUS, R99
  | glyphBlank                             -- GLYPH_BLANK, R99
  | dotFlag (x : BitVec 7)                 -- DOT_FLAG, R161; x are the segment bits [6:0]
  | overflowFrame                          -- OVERFLOW_FRAME, R170
  -- the driver operations (41_display_driver.md; select codes 30_encoding.md R103)
  | setBrightness (level : Byte)           -- setBrightness, R162
  | displayRaw (f : Frame)                 -- displayRaw, R163
  | displayAt (p b : Byte)                 -- displayAt, R164
  | displayNumber (v : BitVec 16) (z : Bool)  -- displayNumber, R166 to R171
  | clear                                  -- clear, R165
  | reservedSelect5                        -- RESERVED_SELECT_5, R105
  | reservedSelect6                        -- RESERVED_SELECT_6, R105
  | reservedSelect7                        -- RESERVED_SELECT_7, R105
  -- the TICK step and its sub-steps (42_tick_and_buttons.md)
  | tick (b0 b1 : Level)                   -- TICK, R190
  | buttonEdgePressed (b : Idx)            -- TICK.ButtonStep.Edge.pressed, R196
  | buttonEdgeReleased (b : Idx)           -- TICK.ButtonStep.Edge.released, R197
  | buttonHoldPressed (b : Idx)            -- TICK.ButtonStep.Hold.pressed, R200
  | buttonHoldReleased (b : Idx)           -- TICK.ButtonStep.Hold.released, R201
  | gesture                                -- TICK.Gesture, R202
  -- the main loop (43_scoreboard.md)
  | poll                                   -- POLL, R231
  | update                                 -- UPDATE, R232
  | render                                 -- RENDER, R241
  | tx1                                    -- TX1, R246
  | tx2                                    -- TX2, R246
  | tx3                                    -- TX3, R246
  | wait                                   -- WAIT, R247
  -- the sub-steps of UPDATE (43_scoreboard.md)
  | applyReset                             -- UPDATE.ApplyReset, R233
  | activate (j : Idx)                     -- UPDATE.Activate, R234
  | click0Dec                              -- UPDATE.Click0.dec, R235
  | click1Inc                              -- UPDATE.Click1.inc, R236
  | longPress0Floor                        -- UPDATE.LongPress0.floor, R237
  | longPress1Snap                         -- UPDATE.LongPress1.snap, R238
  | timeout                                -- UPDATE.Timeout, R240
  -- the codes of the enumerated registers (30_encoding.md)
  | eventNone                              -- ButtonEvent.None, R100
  | eventClick                             -- ButtonEvent.Click, R100
  | eventLongPress                         -- ButtonEvent.LongPress, R100
  | runIdle                                -- RunState.Idle, R101
  | runActiveLeft                          -- RunState.ActiveLeft, R101
  | runActiveRight                         -- RunState.ActiveRight, R101
deriving DecidableEq, Repr

/-- The "format" column of spec/opcode_table.json: the same bits mean different rows under different formats, and
"format tells which" (30_encoding.md R110). The two enumerations have a format each. -/
inductive Format where
  | waveform      -- START, STOP
  | byteSlot      -- WRBYTE
  | transaction   -- TXN
  | frame         -- SENDSEGMENTS
  | command       -- the command bytes
  | segment       -- the segment bytes
  | digit         -- ENCODEDIGIT
  | overflow      -- OVERFLOW_FRAME
  | driver        -- the driver operations, select and operands (R103)
  | tick          -- TICK
  | subStep       -- the sub-steps of TICK and of UPDATE
  | mainStep      -- the main-loop steps, mphase code (R102)
  | eventCode     -- ButtonEvent codes (R100)
  | runCode       -- RunState codes (R101)
deriving DecidableEq, Repr

/-- An operation as it is presented to the decoder: a format of the table and the bytes read under it. -/
structure Code where
  format : Format
  bytes : List Byte
deriving DecidableEq, Repr

/-- The steps of the tick context: they may fall between two transactions of one driver operation
(40_wire_protocol.md R138); everything else is the main context's (60_exceptions.md R280). -/
def Instr.tickContext : Instr → Bool
  | .tick _ _ | .buttonEdgePressed _ | .buttonEdgeReleased _ | .buttonHoldPressed _
  | .buttonHoldReleased _ | .gesture => true
  | .start | .stop | .wrbyte _ _ | .txn _ | .sendSegments _ _ | .cmdDataAutoinc | .cmdAddr _
  | .cmdCtrl _ | .segmentByte _ | .encodeDigit _ | .glyph0 | .glyph1 | .glyph2 | .glyph3 | .glyph4
  | .glyph5 | .glyph6 | .glyph7 | .glyph8 | .glyph9 | .glyphMinus | .glyphBlank | .dotFlag _
  | .overflowFrame | .setBrightness _ | .displayRaw _ | .displayAt _ _ | .displayNumber _ _ | .clear
  | .reservedSelect5 | .reservedSelect6 | .reservedSelect7 | .poll | .update | .render | .tx1 | .tx2
  | .tx3 | .wait | .applyReset | .activate _ | .click0Dec | .click1Inc | .longPress0Floor
  | .longPress1Snap | .timeout | .eventNone | .eventClick | .eventLongPress | .runIdle
  | .runActiveLeft | .runActiveRight => false

end Sys2Proof
end

