-- ==== Sys2Proof/WellFormed.lean ====
section
/-! DEFINITION. Which operations are well formed: the operand ranges of the spec (20_memory.md R69), and for the
segment byte the rule that a byte another row of the table names is written as that row. -/

namespace Sys2Proof

/-- The twelve bytes that a glyph row names: ten digits, minus, blank (30_encoding.md R98, R99). -/
def glyphBytes : List Byte :=
  [0x3F, 0x06, 0x5B, 0x4F, 0x66, 0x6D, 0x7D, 0x07, 0x7F, 0x6F, 0x40, 0x00]

/-- A segment byte that neither a glyph row nor the dot-flag row names: it is written SEGMENT_BYTE (log entry 18). -/
def plainSegment (b : Byte) : Bool := !(glyphBytes.contains b) && !(b.getLsbD 7)

/-- The range rule of a display write: n bytes from position p need 1 <= n and p + n <= 4 (20_memory.md R69). -/
def segmentsInRange (p : Byte) (d : List Byte) : Bool :=
  decide (1 ≤ d.length) && decide (p.toNat + d.length ≤ 4)

/-- Well-formedness of an operation. -/
def Instr.wf : Instr → Bool
  | .txn bytes => !bytes.isEmpty
  | .sendSegments p d => segmentsInRange p d
  | .segmentByte b => plainSegment b
  | .setBrightness level => decide (level.toNat ≤ 7)
  | .displayAt p _ => decide (p.toNat ≤ 3)
  | .start | .stop | .wrbyte _ _ | .cmdDataAutoinc | .cmdAddr _ | .cmdCtrl _ | .encodeDigit _
  | .glyph0 | .glyph1 | .glyph2 | .glyph3 | .glyph4 | .glyph5 | .glyph6 | .glyph7 | .glyph8
  | .glyph9 | .glyphMinus | .glyphBlank | .dotFlag _ | .overflowFrame | .displayRaw _
  | .displayNumber _ _ | .clear | .reservedSelect5 | .reservedSelect6 | .reservedSelect7 | .tick _ _
  | .buttonEdgePressed _ | .buttonEdgeReleased _ | .buttonHoldPressed _ | .buttonHoldReleased _
  | .gesture | .poll | .update | .render | .tx1 | .tx2 | .tx3 | .wait | .applyReset | .activate _
  | .click0Dec | .click1Inc | .longPress0Floor | .longPress1Snap | .timeout | .eventNone
  | .eventClick | .eventLongPress | .runIdle | .runActiveLeft | .runActiveRight => true

end Sys2Proof
end

