-- ==== Sys2Proof/Decode.lean ====
section
/-! DEFINITION. The decoder, total on every format and every list of bytes and rejecting by name, the encoder
written from the same tables of 30_encoding.md, and the reading of a table word the host asks for. -/

namespace Sys2Proof

/-- Why a code is rejected. -/
inductive Reject where
  | wrongLength      -- the format has no row with this many bytes
  | noSuchCode       -- the bits are no row of this format
  | operandRange     -- a one-bit operand byte that is neither 0 nor 1
deriving DecidableEq, Repr

/-- A one-bit operand that travels in a byte of its own. -/
def decodeBit (b : Byte) : Except Reject Bool :=
  if b = 0 then .ok false else if b = 1 then .ok true else .error .operandRange

/-- A level that travels in a byte of its own. -/
def decodeLevel (b : Byte) : Except Reject Level :=
  match decodeBit b with
  | .ok x => .ok (Level.ofBool x)
  | .error r => .error r

/-- A button or side index that travels in a byte of its own. -/
def decodeIdx (b : Byte) : Except Reject Idx :=
  match decodeBit b with
  | .ok x => .ok (if x then .one else .zero)
  | .error r => .error r

/-- START and STOP have no bits: "their encoding is a waveform, written here as the successive (clk, data) level
pairs" (30_encoding.md R91). One byte per pair: clk is bit 1, data is bit 0. -/
def startWaveform : List Byte := [0b11, 0b10, 0b00]

/-- STOP's waveform, entered from `10` (30_encoding.md R91). -/
def stopWaveform : List Byte := [0b10, 0b00, 0b00, 0b10, 0b11]

/-- The waveform format (30_encoding.md R91). -/
def decodeWaveform (bs : List Byte) : Except Reject Instr :=
  if bs = startWaveform then .ok .start
  else if bs = stopWaveform then .ok .stop
  else .error .noSuchCode

/-- The byte slot `abcdefghK` (30_encoding.md R90): slots 1 to 8 are bits 0 to 7 of the first byte, slot 9 is bit 0
of the second. -/
def decodeByteSlot : List Byte → Except Reject Instr
  | [v, k] =>
    match decodeLevel k with
    | .ok a => .ok (.wrbyte v a)
    | .error r => .error r
  | _ => .error .wrongLength

/-- The transaction format: the bytes between START and STOP, at least one (30_encoding.md R91). -/
def decodeTransaction (bs : List Byte) : Except Reject Instr :=
  match bs with
  | [] => .error .wrongLength
  | b :: rest => .ok (.txn (b :: rest))

/-- The frame format, as its operands: the first position, then the segment bytes (30_encoding.md R92). -/
def decodeFrame : List Byte → Except Reject Instr
  | [] => .error .wrongLength
  | p :: d => .ok (.sendSegments p d)

/-- The command bytes: exactly the match and mask of the three command rows (30_encoding.md R93 to R95). -/
def decodeCommandByte (b : Byte) : Except Reject Instr :=
  if b = 0x40 then .ok .cmdDataAutoinc
  else if b &&& 0xFC = 0xC0 then .ok (.cmdAddr (b.extractLsb' 0 2))
  else if b &&& 0xF8 = 0x88 then .ok (.cmdCtrl (b.extractLsb' 0 3))
  else .error .noSuchCode

/-- The command format. -/
def decodeCommand : List Byte → Except Reject Instr
  | [b] => decodeCommandByte b
  | _ => .error .wrongLength

/-- The glyph rows: byte and row (30_encoding.md R98, R99). -/
def glyphRows : List (Byte × Instr) :=
  [(0x3F, .glyph0), (0x06, .glyph1), (0x5B, .glyph2), (0x4F, .glyph3), (0x66, .glyph4), (0x6D, .glyph5),
   (0x7D, .glyph6), (0x07, .glyph7), (0x7F, .glyph8), (0x6F, .glyph9), (0x40, .glyphMinus),
   (0x00, .glyphBlank)]

/-- The segment bytes: the glyph row if one names the byte, else the dot-flag row if the point bit is set, else
SEGMENT_BYTE (30_encoding.md R96 to R99; 41_display_driver.md R161; log entry 18). -/
def decodeSegmentByte (b : Byte) : Instr :=
  match glyphRows.lookup b with
  | some i => i
  | none => if b &&& 0x80 = 0x80 then .dotFlag (b.extractLsb' 0 7) else .segmentByte b

/-- The segment format. -/
def decodeSegment : List Byte → Except Reject Instr
  | [b] => .ok (decodeSegmentByte b)
  | _ => .error .wrongLength

/-- ENCODEDIGIT's format: one unsigned 8-bit operand (41_display_driver.md R160). -/
def decodeDigit : List Byte → Except Reject Instr
  | [d] => .ok (.encodeDigit d)
  | _ => .error .wrongLength

/-- The code of the OVERFLOW_FRAME row: the default of SEG_OVERFLOW, position 0 first (30_encoding.md R99;
41_display_driver.md R170). It is the row's code under every configuration, whatever SEG_OVERFLOW is there (DESIGN
CHOICE, log entry 23). -/
def overflowPattern : List Byte := [0x40, 0x40, 0x40, 0x40]

/-- The overflow-frame format: one code, under every configuration (DESIGN CHOICE, log entry 23). -/
def decodeOverflow (bs : List Byte) : Except Reject Instr :=
  if bs = overflowPattern then .ok .overflowFrame else .error .noSuchCode

/-- A row without operand bytes. -/
def decodeNullary (i : Instr) : List Byte → Except Reject Instr
  | [] => .ok i
  | _ => .error .wrongLength

/-- setBrightness's operand byte. -/
def decodeLevelOperand : List Byte → Except Reject Instr
  | [level] => .ok (.setBrightness level)
  | _ => .error .wrongLength

/-- displayRaw's operand bytes, position 0 first. -/
def decodeFrameOperand : List Byte → Except Reject Instr
  | [f0, f1, f2, f3] => .ok (.displayRaw ⟨f0, f1, f2, f3⟩)
  | _ => .error .wrongLength

/-- displayAt's operand bytes: position, segment byte. -/
def decodePositionOperand : List Byte → Except Reject Instr
  | [p, b] => .ok (.displayAt p b)
  | _ => .error .wrongLength

/-- displayNumber's operand bytes: the value, least significant byte first, then the leading-zero flag. -/
def decodeNumberOperand : List Byte → Except Reject Instr
  | [lo, hi, z] =>
    match decodeBit z with
    | .ok x => .ok (.displayNumber (hi ++ lo) x)
    | .error r => .error r
  | _ => .error .wrongLength

/-- The driver operations: the select of 30_encoding.md R103 in the first byte, the operands beside it (their
layout is the model's, log entry 17). -/
def decodeDriver : List Byte → Except Reject Instr
  | [] => .error .wrongLength
  | sel :: ops =>
    if sel = 0 then decodeLevelOperand ops
    else if sel = 1 then decodeFrameOperand ops
    else if sel = 2 then decodePositionOperand ops
    else if sel = 3 then decodeNumberOperand ops
    else if sel = 4 then decodeNullary .clear ops
    else if sel = 5 then decodeNullary .reservedSelect5 ops
    else if sel = 6 then decodeNullary .reservedSelect6 ops
    else if sel = 7 then decodeNullary .reservedSelect7 ops
    else .error .noSuchCode

/-- TICK's format, as its two operands: the sampled button levels (42_tick_and_buttons.md R190). -/
def decodeTick : List Byte → Except Reject Instr
  | [x, y] =>
    match decodeLevel x, decodeLevel y with
    | .ok b0, .ok b1 => .ok (.tick b0 b1)
    | .error r, _ => .error r
    | _, .error r => .error r
  | _ => .error .wrongLength

/-- A sub-step row whose one operand is a button or side index. -/
def decodeIndexed (row : Idx → Instr) : List Byte → Except Reject Instr
  | [b] =>
    match decodeIdx b with
    | .ok j => .ok (row j)
    | .error r => .error r
  | _ => .error .wrongLength

/-- The sub-steps, numbered by their place among the table's sub-step rows (log entry 17: the spec gives them no
bits). -/
def decodeSubStep : List Byte → Except Reject Instr
  | [] => .error .wrongLength
  | n :: ops =>
    if n = 0 then decodeIndexed .buttonEdgePressed ops
    else if n = 1 then decodeIndexed .buttonEdgeReleased ops
    else if n = 2 then decodeIndexed .buttonHoldPressed ops
    else if n = 3 then decodeIndexed .buttonHoldReleased ops
    else if n = 4 then decodeNullary .gesture ops
    else if n = 5 then decodeNullary .applyReset ops
    else if n = 6 then decodeIndexed .activate ops
    else if n = 7 then decodeNullary .click0Dec ops
    else if n = 8 then decodeNullary .click1Inc ops
    else if n = 9 then decodeNullary .longPress0Floor ops
    else if n = 10 then decodeNullary .longPress1Snap ops
    else if n = 11 then decodeNullary .timeout ops
    else .error .noSuchCode

/-- The main-loop steps by their mphase code; 7 is never written (30_encoding.md R102). -/
def decodeMainStep : List Byte → Except Reject Instr
  | [c] =>
    if c = 0b000 then .ok .poll
    else if c = 0b001 then .ok .update
    else if c = 0b010 then .ok .render
    else if c = 0b011 then .ok .tx1
    else if c = 0b100 then .ok .tx2
    else if c = 0b101 then .ok .tx3
    else if c = 0b110 then .ok .wait
    else .error .noSuchCode
  | _ => .error .wrongLength

/-- The ButtonEvent codes; 3 is never written (30_encoding.md R100). -/
def decodeEventCode : List Byte → Except Reject Instr
  | [c] =>
    if c = 0b00 then .ok .eventNone
    else if c = 0b01 then .ok .eventClick
    else if c = 0b10 then .ok .eventLongPress
    else .error .noSuchCode
  | _ => .error .wrongLength

/-- The RunState codes; 3 is never written (30_encoding.md R101). -/
def decodeRunCode : List Byte → Except Reject Instr
  | [c] =>
    if c = 0b00 then .ok .runIdle
    else if c = 0b01 then .ok .runActiveLeft
    else if c = 0b10 then .ok .runActiveRight
    else .error .noSuchCode
  | _ => .error .wrongLength

/-- The decoder: total, by format (30_encoding.md R110). -/
def decode (c : Code) : Except Reject Instr :=
  match c.format with
  | .waveform => decodeWaveform c.bytes
  | .byteSlot => decodeByteSlot c.bytes
  | .transaction => decodeTransaction c.bytes
  | .frame => decodeFrame c.bytes
  | .command => decodeCommand c.bytes
  | .segment => decodeSegment c.bytes
  | .digit => decodeDigit c.bytes
  | .overflow => decodeOverflow c.bytes
  | .driver => decodeDriver c.bytes
  | .tick => decodeTick c.bytes
  | .subStep => decodeSubStep c.bytes
  | .mainStep => decodeMainStep c.bytes
  | .eventCode => decodeEventCode c.bytes
  | .runCode => decodeRunCode c.bytes

/-- A one-bit operand in a byte of its own. -/
def encodeBit (x : Bool) : Byte := if x then 1 else 0

/-- A level in a byte of its own. -/
def encodeLevel : Level → Byte
  | .low => 0
  | .high => 1

/-- An index in a byte of its own. -/
def encodeIdx : Idx → Byte
  | .zero => 0
  | .one => 1

/-- The encoder, from the same tables. -/
def encode : Instr → Code
  | .start => ⟨.waveform, startWaveform⟩
  | .stop => ⟨.waveform, stopWaveform⟩
  | .wrbyte v k => ⟨.byteSlot, [v, encodeLevel k]⟩
  | .txn bytes => ⟨.transaction, bytes⟩
  | .sendSegments p d => ⟨.frame, p :: d⟩
  | .cmdDataAutoinc => ⟨.command, [0x40]⟩
  | .cmdAddr p => ⟨.command, [0b110000#6 ++ p]⟩
  | .cmdCtrl l => ⟨.command, [0b10001#5 ++ l]⟩
  | .segmentByte b => ⟨.segment, [b]⟩
  | .encodeDigit d => ⟨.digit, [d]⟩
  | .glyph0 => ⟨.segment, [0b00111111]⟩
  | .glyph1 => ⟨.segment, [0b00000110]⟩
  | .glyph2 => ⟨.segment, [0b01011011]⟩
  | .glyph3 => ⟨.segment, [0b01001111]⟩
  | .glyph4 => ⟨.segment, [0b01100110]⟩
  | .glyph5 => ⟨.segment, [0b01101101]⟩
  | .glyph6 => ⟨.segment, [0b01111101]⟩
  | .glyph7 => ⟨.segment, [0b00000111]⟩
  | .glyph8 => ⟨.segment, [0b01111111]⟩
  | .glyph9 => ⟨.segment, [0b01101111]⟩
  | .glyphMinus => ⟨.segment, [0b01000000]⟩
  | .glyphBlank => ⟨.segment, [0b00000000]⟩
  | .dotFlag x => ⟨.segment, [0b1#1 ++ x]⟩
  | .overflowFrame => ⟨.overflow, overflowPattern⟩
  | .setBrightness level => ⟨.driver, [0, level]⟩
  | .displayRaw f => ⟨.driver, [1, f.p0, f.p1, f.p2, f.p3]⟩
  | .displayAt p b => ⟨.driver, [2, p, b]⟩
  | .displayNumber v z => ⟨.driver, [3, v.extractLsb' 0 8, v.extractLsb' 8 8, encodeBit z]⟩
  | .clear => ⟨.driver, [4]⟩
  | .reservedSelect5 => ⟨.driver, [5]⟩
  | .reservedSelect6 => ⟨.driver, [6]⟩
  | .reservedSelect7 => ⟨.driver, [7]⟩
  | .tick b0 b1 => ⟨.tick, [encodeLevel b0, encodeLevel b1]⟩
  | .buttonEdgePressed b => ⟨.subStep, [0, encodeIdx b]⟩
  | .buttonEdgeReleased b => ⟨.subStep, [1, encodeIdx b]⟩
  | .buttonHoldPressed b => ⟨.subStep, [2, encodeIdx b]⟩
  | .buttonHoldReleased b => ⟨.subStep, [3, encodeIdx b]⟩
  | .gesture => ⟨.subStep, [4]⟩
  | .poll => ⟨.mainStep, [0b000]⟩
  | .update => ⟨.mainStep, [0b001]⟩
  | .render => ⟨.mainStep, [0b010]⟩
  | .tx1 => ⟨.mainStep, [0b011]⟩
  | .tx2 => ⟨.mainStep, [0b100]⟩
  | .tx3 => ⟨.mainStep, [0b101]⟩
  | .wait => ⟨.mainStep, [0b110]⟩
  | .applyReset => ⟨.subStep, [5]⟩
  | .activate j => ⟨.subStep, [6, encodeIdx j]⟩
  | .click0Dec => ⟨.subStep, [7]⟩
  | .click1Inc => ⟨.subStep, [8]⟩
  | .longPress0Floor => ⟨.subStep, [9]⟩
  | .longPress1Snap => ⟨.subStep, [10]⟩
  | .timeout => ⟨.subStep, [11]⟩
  | .eventNone => ⟨.eventCode, [0b00]⟩
  | .eventClick => ⟨.eventCode, [0b01]⟩
  | .eventLongPress => ⟨.eventCode, [0b10]⟩
  | .runIdle => ⟨.runCode, [0b00]⟩
  | .runActiveLeft => ⟨.runCode, [0b01]⟩
  | .runActiveRight => ⟨.runCode, [0b10]⟩

/-- Byte k of a number, least significant byte first. -/
def byteOf (w k : Nat) : Byte := BitVec.ofNat 8 (w / 256 ^ k)

/-- A driver select with operand bytes of zeros. -/
def driverZeros (w : Nat) : List Byte :=
  byteOf w 0 :: List.replicate (match w with | 0 => 1 | 1 => 4 | 2 => 2 | 3 => 3 | _ => 0) 0

/-- The code a table word stands for. A word of the table does not carry its format: 8 bits that are a command
byte are read as one, other 8 bits as a segment byte; 32 bits as the overflow frame; 9 bits (or 16) as a byte slot;
3 bits as a driver select; 2 bits as a ButtonEvent code (log entry 18). -/
def tableCode (nbits w : Nat) : Option Code :=
  if w < 2 ^ nbits then
    match nbits with
    | 8 =>
      match decodeCommandByte (byteOf w 0) with
      | .ok _ => some ⟨.command, [byteOf w 0]⟩
      | .error _ => some ⟨.segment, [byteOf w 0]⟩
    | 32 => some ⟨.overflow, [byteOf w 3, byteOf w 2, byteOf w 1, byteOf w 0]⟩
    | 9 => some ⟨.byteSlot, [byteOf w 0, byteOf w 1]⟩
    | 16 => some ⟨.byteSlot, [byteOf w 0, byteOf w 1]⟩
    | 3 => some ⟨.driver, driverZeros w⟩
    | 2 => some ⟨.eventCode, [byteOf w 0]⟩
    | _ => none
  else none

/-- The instruction the decoder reads from a table word of `nbits` bits. -/
def decodeTableWord (nbits w : Nat) : Option Instr :=
  match tableCode nbits w with
  | none => none
  | some c =>
    match decode c with
    | .ok i => some i
    | .error _ => none

end Sys2Proof
end

