-- ==== Sys2Proof/Machine/State.lean ====
section
/-! DEFINITION. The state of the block: every register of 10_state.md R20, the observer peer of 20_memory.md R66,
the configuration of 00_scope.md R9, and the model's own fields for what the environment supplies. -/

namespace Sys2Proof.Machine

/-- Faults: none. "The block raises no synchronous exception" and "a model needs no fault outcome for any in-range
input" (60_exceptions.md R270); nobody raises one. -/
inductive Fault : Type
deriving DecidableEq, Repr

/-- Refusals: the operation has no step (00_scope.md R15). -/
inductive Refusal where
  /-- Raised by an arm of exec that has no meaning yet; safe. No arm raises it. -/
  | notModelled (mnemonic : String)
  /-- Raised by a step under a configuration that violates 00_scope.md R9 or R10; safe. -/
  | badConfiguration
  /-- Raised by a step whose script holds a code that is no row of the table; safe. -/
  | undecodable (why : Reject)
  /-- Raised by a main-context step whose phase is not the one in mphase, and by a transition of `run` whose run
  state is not the present one (43_scoreboard.md R230 to R247); safe (log entry 13). -/
  | notEnabled
  /-- Raised by a ButtonStep row of the button policy that is not selected (00_scope.md R3, R9), and by the two LongPress
  edits under the Hold policy (43_scoreboard.md R237, R238); safe (log entry 13). -/
  | policyNotSelected
  /-- Raised by SENDSEGMENTS and displayAt: position and byte count outside 20_memory.md R69; safe. -/
  | positionOutOfRange
  /-- Raised by setBrightness: a level above 7 (41_display_driver.md R162); safe. -/
  | levelOutOfRange
  /-- Raised by TXN of no byte: "B a non-empty list of bytes" (40_wire_protocol.md R136); safe. -/
  | emptyTransaction
  /-- Raised by the reserved selects 5, 6, 7 (30_encoding.md R105; 41_display_driver.md R173); safe. -/
  | reservedSelect (select : Nat)
deriving DecidableEq, Repr

/-- `evt[b]`: an event latch's value (10_state.md R24). -/
inductive ButtonEvent where
  | none
  | click
  | longPress
deriving DecidableEq, Repr

/-- `run` (10_state.md R27). -/
inductive RunState where
  | idle
  | activeLeft
  | activeRight
deriving DecidableEq, Repr

/-- `mphase` (10_state.md R36). -/
inductive Phase where
  | poll
  | update
  | render
  | tx1
  | tx2
  | tx3
  | wait
deriving DecidableEq, Repr

/-- `dioDir` (10_state.md R33). -/
inductive Dir where
  | output
  | input
deriving DecidableEq, Repr

/-- The wire events `C0 C1 D0 D1 DZ W S(a)` (00_scope.md R14). -/
inductive WireEvent where
  | c0
  | c1
  | d0
  | d1
  | dz
  | w
  | s (a : Level)
deriving DecidableEq, Repr

/-- The peer's display memory: (address, byte) pairs in canonical form, addresses rising, no blank byte
(20_memory.md R62, R66; log entry 4). -/
abbrev Memory := List Host.Cell

/-- The observer peer (20_memory.md R66). -/
structure Peer where
  disp    : Memory     -- pDisp[0..5]
  on      : Bool       -- pOn
  bright  : BitVec 3   -- pBright
  addr    : BitVec 4   -- the address pointer
  autoInc : Bool       -- the address mode
deriving DecidableEq, Repr

/-- What the peer has received since the last start condition (20_memory.md R66, "for each complete transaction"):
the bytes, oldest first, and whether every one was acknowledged. -/
inductive Reception where
  | closed
  | receiving (bytes : List Byte) (acked : Bool)
deriving DecidableEq, Repr

/-- The line registers (10_state.md R32, R33). -/
structure Lines where
  clk    : Level   -- R32
  dio    : Level   -- R33
  dioDir : Dir     -- R33
deriving DecidableEq, Repr

/-- The 2-wire link: the line registers, the wire trace, the environment's acknowledgment levels and the peer. -/
structure Link where
  lines : Lines
  wire  : List WireEvent   -- R40, oldest first
  dioIn : List Level       -- model's own: acknowledgment levels lined up by the environment
  draws : Nat              -- model's own: numbers the free values of the link
  peer  : Peer
  rx    : Reception
deriving DecidableEq, Repr

/-- A transaction of a driver operation that is not yet sent (40_wire_protocol.md R137, R138). -/
inductive Pending where
  | data                             -- TX1
  | addr (p : Byte) (d : List Byte)  -- TX2
  | ctrl                             -- TX3: reads `brightness` when it is built (10_state.md R30)
deriving DecidableEq, Repr

/-- One statement of the stimulus script (30_encoding.md R108), and two of the model's own, `main` and an `op` that is no
driver operation (log entry 8). `expect ..` is no statement here: it takes no step and is a claim about the state. -/
inductive Stim where
  | op (c : Code)                 -- one operation: a driver operation; model's own: any row of the table
  | main                          -- model's own: the next main-context step alone
  | tick (b0 b1 : Level) (n : Nat)   -- `T b0 b1 * n`; `T b0 b1` with n = 1
  | mainToWait (ack : List Level) -- `M ack=..`; `M` with the empty list: every sample is 0
  | loop (b0 b1 : Level) (n : Nat)   -- `L b0 b1 * n`: n times `T b0 b1` then `M`
deriving DecidableEq, Repr

/-- The state. -/
structure State where
  cfg        : Config               -- 00_scope.md R9; no step changes it
  score      : Duo (Fin 100)        -- R21
  dur        : Duo (BitVec 16)      -- R22
  evt        : Duo ButtonEvent      -- R24
  resetReq   : Bool                 -- R25
  voided     : Duo Bool             -- R26, `void[b]`
  run        : RunState             -- R27
  now        : Nat                  -- R28, below 2^TICK_BITS
  stateTime  : Nat                  -- R29, below 2^TICK_BITS
  brightness : BitVec 3             -- R30
  mphase     : Phase                -- R36
  snapReset  : Bool                 -- R37
  snapEvt    : Duo ButtonEvent      -- R37
  snapNow    : Nat                  -- R37, below 2^TICK_BITS
  frame      : Frame                -- R38
  link       : Link                 -- R32, R33, R40; the peer, 20_memory.md R66
  pending    : List Pending         -- model's own: the rest of a driver operation in progress, R138
  port       : List Stim            -- model's own: the stimulus script still to run, R108
  draws      : Nat                  -- model's own: numbers the free values of the schedule
  result     : Byte                 -- model's own: what a pure row delivered last
deriving DecidableEq, Repr

/-- The idle bus (40_wire_protocol.md R130). -/
def Lines.idleBus : Lines where
  clk := .high
  dio := .high
  dioDir := .output

/-- The bus is idle, nothing was sent, no acknowledgment level is lined up (10_state.md R42). -/
def Link.reset (peer : Peer) : Link where
  lines := Lines.idleBus
  wire := []
  dioIn := []
  draws := 0
  peer := peer
  rx := .closed

/-- The peer before the first frame: unknown to the block (U8). DESIGN CHOICE, log entry 4: dark and blank. -/
def Peer.dark : Peer where
  disp := []
  on := false
  bright := 0
  addr := 0
  autoInc := true

/-- The reset state of 10_state.md R42 for every value of what the spec leaves unspecified there: the
configuration, `now`, `stateTime`, the snapshot, the frame and the peer (U2, U3, U8). -/
def State.resetWith (cfg : Config) (now stateTime snapNow : Nat) (snapReset : Bool)
    (snapEvt : Duo ButtonEvent) (frame : Frame) (peer : Peer) : State where
  cfg := cfg
  score := ⟨cfg.scoreMax, cfg.scoreMax⟩
  dur := ⟨0, 0⟩
  evt := ⟨.none, .none⟩
  resetReq := false
  voided := ⟨false, false⟩
  run := .idle
  now := now
  stateTime := stateTime
  brightness := cfg.brightDim
  mphase := .poll
  snapReset := snapReset
  snapEvt := snapEvt
  snapNow := snapNow
  frame := frame
  link := Link.reset peer
  pending := []
  port := []
  draws := 0
  result := 0

/-- The machine right after reset (10_state.md R42; 70_reset_and_hazards.md R301), with the values of log entries
2, 3 and 4 where the spec says "unspecified". -/
def State.reset : State :=
  State.resetWith Config.default 0 0 0 false ⟨.none, .none⟩ ⟨0, 0, 0, 0⟩ Peer.dark

end Sys2Proof.Machine
end

