-- ==== Sys2Proof/Machine/Constants.lean ====
section
/-! DEFINITION. The constants of 00_scope.md R9 that are not carried in the configuration: score bounds, segment
bytes, the segment ROM and the command bytes. The byte values are the spec's general knowledge (G1 to G3 of
93_implementation_defined.md), PRESUMED, log entry 15. -/

namespace Sys2Proof.Machine

/-- SCORE_FLOOR (00_scope.md R9). -/
def scoreFloor : Fin 100 := 0

/-- SCORE_CEIL (00_scope.md R9). -/
def scoreCeil : Fin 100 := 99

/-- SEGROM: ten bytes, index 0..9 (20_memory.md R60; 30_encoding.md R98). -/
def segRom : Vector Byte 10 := #v[0x3F, 0x06, 0x5B, 0x4F, 0x66, 0x6D, 0x7D, 0x07, 0x7F, 0x6F]

/-- SEG_MINUS (30_encoding.md R99). -/
def segMinus : Byte := 0x40

/-- SEG_BLANK (30_encoding.md R99). -/
def segBlank : Byte := 0x00

/-- SEG_DOT (30_encoding.md R96). -/
def segDot : Byte := 0x80

/-- CMD_DATA_AUTOINC (30_encoding.md R93). -/
def cmdDataAutoincByte : Byte := 0x40

/-- CMD_ADDR_BASE (30_encoding.md R94). -/
def cmdAddrBase : Byte := 0xC0

/-- CMD_CTRL_BASE (30_encoding.md R95). -/
def cmdCtrlBase : Byte := 0x80

/-- DISPLAY_ON, the on bit, hardwired 1 (00_scope.md R9; 10_state.md R30). -/
def displayOn : Byte := 1

end Sys2Proof.Machine
end

