-- ==== Sys2Proof/Machine/Operands.lean ====
section
/-! DEFINITION. Operand forms and computed values: transmitted bytes (30_encoding.md R104), digits and frames
(41_display_driver.md R160 to R170), saturating scores (00_scope.md R16), wrap-safe tick arithmetic (R12), line
levels and codes of enumerations (30_encoding.md R100 to R102). -/

namespace Sys2Proof.Machine

/-- `MemRead(SEGROM, d, 1)` for an index in 0..9 (00_scope.md R13; 20_memory.md R60, R61). -/
def memReadSegRom (d : Nat) (h : d < 10) : Byte := segRom[d]

/-- encodeDigit (41_display_driver.md R160). -/
def encodeDigitByte (d : Byte) : Byte :=
  if h : d.toNat < 10 then memReadSegRom d.toNat h else segMinus

/-- encodeDigit of a number that is a digit. -/
def digitByte (n : Nat) : Byte := encodeDigitByte (BitVec.ofNat 8 n)

/-- withDot (41_display_driver.md R161). -/
def withDot (b : Byte) : Byte := b ||| segDot

/-- The address byte: CMD_ADDR_BASE + p (30_encoding.md R94, R104; 20_memory.md R63). -/
def addrByte (p : Byte) : Byte := cmdAddrBase + p

/-- The control byte: CMD_CTRL_BASE + 8*DISPLAY_ON + zext_8(L) (30_encoding.md R95, R104). -/
def ctrlByte (l : BitVec 3) : Byte := cmdCtrlBase + 8 * displayOn + l.setWidth 8

/-- `pressed[b] = (btn[b] = 0)` (10_state.md R34; 42_tick_and_buttons.md R192). -/
def pressed (b : Level) : Bool := b = .low

/-- `inc(s) = min(s + 1, SCORE_CEIL)` (00_scope.md R16). -/
def scoreInc (s : Fin 100) : Fin 100 :=
  if h : s.val + 1 < 100 then ⟨s.val + 1, h⟩ else scoreCeil

/-- `dec(s) = max(s - 1, SCORE_FLOOR)` (00_scope.md R16). -/
def scoreDec (s : Fin 100) : Fin 100 :=
  if s.val = 0 then scoreFloor else ⟨s.val - 1, by omega⟩

/-- The tick counter's increment modulo 2^TICK_BITS (42_tick_and_buttons.md R191). -/
def tickInc (tickBits n : Nat) : Nat := (n + 1) % 2 ^ tickBits

/-- `a -w b`: wrap-safe unsigned subtraction at the tick width (00_scope.md R12). -/
def tickSub (tickBits a b : Nat) : Nat := (a + (2 ^ tickBits - b % 2 ^ tickBits)) % 2 ^ tickBits

/-- One significant-digit position: a digit once a digit was seen, else blank (41_display_driver.md R167). -/
def shown (seen : Bool) (g : Nat) : Byte := if seen then digitByte g else segBlank

/-- format, 0 <= n <= 9999 (41_display_driver.md R167). -/
def formatNonNegative (n : Nat) (z : Bool) : Frame :=
  let g0 := n / 1000
  let g1 := (n / 100) % 10
  let g2 := (n / 10) % 10
  let g3 := n % 10
  let seen0 := z || g0 != 0
  let seen1 := seen0 || g1 != 0
  let seen2 := seen1 || g2 != 0
  ⟨shown seen0 g0, shown seen1 g1, shown seen2 g2, shown true g3⟩

/-- format, negative, of the magnitude 1 <= m <= 999: the minus glyph and three digits (41_display_driver.md R168,
R169). -/
def formatNegative (m : Nat) (z : Bool) : Frame :=
  let g1 := m / 100
  let g2 := (m / 10) % 10
  let g3 := m % 10
  let seen1 := z || g1 != 0
  let seen2 := seen1 || g2 != 0
  ⟨segMinus, shown seen1 g1, shown seen2 g2, shown true g3⟩

/-- format(v, z): the range test on the signed value first, then the sign (41_display_driver.md R166 to R170). -/
def format (cfg : Config) (v : BitVec 16) (z : Bool) : Frame :=
  if v.toInt < -999 ∨ 9999 < v.toInt then cfg.segOverflow
  else if v.toInt < 0 then formatNegative v.toInt.natAbs z
  else formatNonNegative v.toInt.toNat z

/-- ButtonEvent code, 2 bits (30_encoding.md R100). -/
def ButtonEvent.code : ButtonEvent → BitVec 2
  | .none => 0
  | .click => 1
  | .longPress => 2

/-- RunState code, 2 bits (30_encoding.md R101). -/
def RunState.code : RunState → BitVec 2
  | .idle => 0
  | .activeLeft => 1
  | .activeRight => 2

/-- Main-loop phase code, 3 bits (30_encoding.md R102). -/
def Phase.code : Phase → BitVec 3
  | .poll => 0
  | .update => 1
  | .render => 2
  | .tx1 => 3
  | .tx2 => 4
  | .tx3 => 5
  | .wait => 6

/-- `Active(s)` (10_state.md R27). -/
def RunState.active : Idx → RunState
  | .zero => .activeLeft
  | .one => .activeRight

/-- `side(run)`, defined only when run is not Idle (10_state.md R27). -/
def RunState.side : RunState → Option Idx
  | .idle => none
  | .activeLeft => some .zero
  | .activeRight => some .one

/-- A 2-bit code in a byte (00_scope.md R12 zext). -/
def codeByte (c : BitVec 2) : Byte := c.setWidth 8

end Sys2Proof.Machine
end

