-- ==== Sys2Proof/Machine/Ops.lean ====
section
/-! DEFINITION. The named operations over memory, lines, the peer and registers.

There is no exception to take (60_exceptions.md R270). The one interrupt is the tick (R275): its entry "saves
nothing and changes no mode bit", it has no vector, its handler is the TICK step itself, and its return restores
nothing (R278, R279). So taking the tick and returning from it are the TICK step (Tick.lean) between two
main-context steps; the one register of the main context it may change is mphase, by `wake` below. -/

namespace Sys2Proof.Machine

/-! ### The peer's display memory (20_memory.md R62, R66) -/

/-- What an unlisted address reads as (log entry 4). -/
def Memory.unlisted : Byte := 0

/-- Reading one byte. -/
def Memory.read : Memory → Nat → Byte
  | [], _ => Memory.unlisted
  | (k, v) :: rest, a => if k = a then v else Memory.read rest a

/-- Writing one byte, keeping the canonical form. -/
def Memory.write : Memory → Nat → Byte → Memory
  | [], a, v => if v = Memory.unlisted then [] else [(a, v)]
  | (k, u) :: rest, a, v =>
    if a < k then (if v = Memory.unlisted then (k, u) :: rest else (a, v) :: (k, u) :: rest)
    else if a = k then (if v = Memory.unlisted then rest else (a, v) :: rest)
    else (k, u) :: Memory.write rest a v

/-- Writing bytes at rising addresses (20_memory.md R63). -/
def Memory.writeBytes (m : Memory) (a : Nat) : List Byte → Memory
  | [] => m
  | b :: rest => Memory.writeBytes (Memory.write m a b) (a + 1) rest

/-- Addresses strictly rising. -/
def Memory.rising : Memory → Bool
  | [] => true
  | [_] => true
  | (k, _) :: (k', v') :: rest => decide (k < k') && Memory.rising ((k', v') :: rest)

/-- The canonical form: addresses strictly rising, no entry equal to what an unlisted address reads as. -/
def Memory.wf (m : Memory) : Bool :=
  Memory.rising m && m.all (fun c => c.2 != Memory.unlisted)

/-- Every listed address is one of the peer's display addresses 0..5 (20_memory.md R62, R66). -/
def Memory.inDisp (m : Memory) : Bool := m.all (fun c => decide (c.1 < 6))

/-! ### The lines and the wire trace (40_wire_protocol.md R130) -/

/-- What one wire event does to the line registers (R130). -/
def Lines.drive (l : Lines) : WireEvent → Lines
  | .c0 => { l with clk := .low }
  | .c1 => { l with clk := .high }
  | .d0 => { l with dioDir := .output, dio := .low }
  | .d1 => { l with dioDir := .output, dio := .high }
  | .dz => { l with dioDir := .input }
  | .w => l
  | .s _ => l

/-- Wire events in order. -/
def Lines.driveAll (l : Lines) (es : List WireEvent) : Lines := es.foldl Lines.drive l

/-- `emit(e)` for each event in order: the lines, and the trace (00_scope.md R14; 40_wire_protocol.md R130). -/
def Link.emitAll (l : Link) (es : List WireEvent) : Link :=
  { l with lines := l.lines.driveAll es, wire := l.wire ++ es }

/-- START's events (R131). -/
def startEvents : List WireEvent := [.d0, .c0]

/-- STOP's events (R132). -/
def stopEvents : List WireEvent := [.c0, .d0, .c1, .d1]

/-- One data slot (R133). -/
def slotEvents (bit : Bool) : List WireEvent := [.c0, if bit then .d1 else .d0, .c1]

/-- WRBYTE(v), slots 1 to 8, bit 0 first (R133). -/
def dataEvents (v : Byte) : List WireEvent :=
  [0, 1, 2, 3, 4, 5, 6, 7].flatMap (fun i => slotEvents (v.getLsbD i))

/-- WRBYTE(v), slot 9, with the level the environment supplies (R134). -/
def ackEvents (a : Level) : List WireEvent := [.c0, .dz, .c1, .w, .s a, .d0]

/-- WRBYTE(v) (R133, R134). -/
def byteEvents (v : Byte) (a : Level) : List WireEvent := dataEvents v ++ ackEvents a

/-! ### The observer peer (20_memory.md R66) -/

/-- The data bytes of an address transaction: `pDisp[a + k - 1] <- Bk` for k = 1..n, in either address mode, since R66
tests none. pDisp has the addresses 0..5: a byte for another address is stored nowhere and the others are stored (log
entry 25). The address pointer then stands behind the bytes in auto-increment mode (R63), else at a. -/
def Peer.storeData (p : Peer) (a : BitVec 4) (d : List Byte) : Peer :=
  { p with
    disp := Memory.writeBytes p.disp a.toNat (d.take (6 - a.toNat))
    addr := if p.autoInc then a + BitVec.ofNat 4 d.length else a }

/-- What a present peer does with a complete transaction; `none` where R66 states no effect: no byte at all, or a first
byte of no command class. The peer is then a free value, the model's choice (DESIGN CHOICE, log entry 6). -/
def Peer.receive (p : Peer) : List Byte → Option Peer
  | [] => none
  | b0 :: d =>
    if b0.extractLsb' 6 2 = 0b01 then some { p with autoInc := !(b0.getLsbD 2) }
    else if b0.extractLsb' 6 2 = 0b11 then some (p.storeData (b0.extractLsb' 0 4) d)
    else if b0.extractLsb' 6 2 = 0b10 then
      some { p with on := b0.getLsbD 3, bright := b0.extractLsb' 0 3 }
    else none

/-- The peer where no rule says what it holds: the n-th free values (U9, log entry 6). -/
def Peer.unknown (n : Nat) : Peer where
  disp := Memory.writeBytes [] 0 ([0, 1, 2, 3, 4, 5].map (Config.freePeerByte n))
  on := Config.freePeerOn n
  bright := Config.freePeerBright n
  addr := Config.freePeerAddr n
  autoInc := Config.freePeerAutoInc n

/-- A byte received, and whether it was acknowledged. -/
def Reception.push (r : Reception) (v : Byte) (a : Level) : Reception :=
  match r with
  | .closed => .closed
  | .receiving bytes acked => .receiving (bytes ++ [v]) (acked && decide (a = .low))

/-- The end of a transaction at the peer. "A present peer answers every byte with an acknowledgment": where all
bytes were acknowledged R66 applies; where one was not, or R66 states no effect, the peer is unknown (log entry 6). -/
def Link.complete (l : Link) : Link :=
  match l.rx with
  | .closed => l
  | .receiving bytes acked =>
    match (if acked then l.peer.receive bytes else none) with
    | some p => { l with rx := .closed, peer := p }
    | none => { l with rx := .closed, peer := Peer.unknown l.draws, draws := l.draws + 1 }

/-! ### Wire primitives (40_wire_protocol.md R131 to R136) -/

/-- START (R131). At the peer a reception opens. Over an unfinished reception it opens a new one: the bytes received so
far are dropped and the peer stays as it is, the model's choice (DESIGN CHOICE, log entry 24). -/
def Link.startCond (l : Link) : Link := { l.emitAll startEvents with rx := .receiving [] true }

/-- STOP (R132). -/
def Link.stopCond (l : Link) : Link := (l.emitAll stopEvents).complete

/-- WRBYTE(v) with the acknowledgment level a (R133, R134); a is not stored by the block (R135). -/
def Link.wrByte (l : Link) (v : Byte) (a : Level) : Link :=
  { l.emitAll (byteEvents v a) with rx := l.rx.push v a }

/-- `a <- draw`: the level the environment lined up, else a free value (R134, U1, log entry 5). -/
def Link.ackLevel (l : Link) : Level :=
  match l.dioIn with
  | a :: _ => a
  | [] => Config.freeAck l.draws

/-- The link after the draw. -/
def Link.ackTaken (l : Link) : Link :=
  match l.dioIn with
  | _ :: rest => { l with dioIn := rest }
  | [] => { l with draws := l.draws + 1 }

/-- WRBYTE(v) with a drawn acknowledgment level. -/
def Link.sendByte (l : Link) (v : Byte) : Link := l.ackTaken.wrByte v l.ackLevel

/-- Bytes sent in order. -/
def Link.sendBytes (l : Link) : List Byte → Link
  | [] => l
  | v :: rest => (l.sendByte v).sendBytes rest

/-- TXN(B) (R136): one atomic transaction (R138). -/
def Link.transact (l : Link) (bytes : List Byte) : Link := (l.startCond.sendBytes bytes).stopCond

/-! ### Operations on the state -/

/-- A transaction on the state's link. -/
def transact (bytes : List Byte) (s : State) : State := { s with link := s.link.transact bytes }

/-- Bytes in byte slots, outside TXN. -/
def transmit (bytes : List Byte) (s : State) : State := { s with link := s.link.sendBytes bytes }

/-- The bytes of a pending transaction; the third reads `brightness` (R137; 10_state.md R30). -/
def pendingBytes (brightness : BitVec 3) : Pending → List Byte
  | .data => [cmdDataAutoincByte]
  | .addr p d => addrByte p :: d
  | .ctrl => [ctrlByte brightness]

/-- The next transaction of the driver operation in progress, one atomic step (R138). -/
def sendPending (s : State) : State :=
  match s.pending with
  | [] => s
  | t :: rest => transact (pendingBytes s.brightness t) { s with pending := rest }

/-- SendSegments(p, d) (R137): its three transactions are queued in order and the first of the queue is sent; the
others are the main context's next steps (R138, log entry 9). -/
def startFrame (p : Byte) (d : List Byte) (s : State) : State :=
  sendPending { s with pending := s.pending ++ [.data, .addr p d, .ctrl] }

/-- setBrightness, in range (41_display_driver.md R162). -/
def storeBrightness (level : BitVec 3) (s : State) : State := { s with brightness := level }

/-- The tick counter's step (42_tick_and_buttons.md R191). -/
def clockIncrement (s : State) : State := { s with now := tickInc s.cfg.tickBits s.now }

/-- The wake (42_tick_and_buttons.md R193). -/
def wake (s : State) : State :=
  match s.mphase with
  | .wait => { s with mphase := .poll }
  | .poll | .update | .render | .tx1 | .tx2 | .tx3 => s

/-- A pure row delivers its value (log entry 12). -/
def deliver (b : Byte) (s : State) : State := { s with result := b }

/-- A step of the main context that is enabled in one phase only (43_scoreboard.md R230, log entry 13). -/
def inPhase (p : Phase) (s t : State) : Host.Outcome State Fault Refusal :=
  if s.mphase = p then .next t else .refused .notEnabled

end Sys2Proof.Machine
end

