-- ==== Sys2Proof/Machine/Flags.lean ====
section
/-! DEFINITION. The latches and flags of the tick context: press duration and events of one button under both
policies, the latch write, and the reset gesture (42_tick_and_buttons.md R195 to R206). -/

namespace Sys2Proof.Machine

/-- What ButtonStep reads and writes of one button: `dur[b]` and `void[b]`. -/
structure Press where
  dur : BitVec 16
  voided : Bool
deriving DecidableEq, Repr

/-- ButtonStep_Edge(b, true): the counter saturates at DUR_MAX (R196). -/
def edgePressed (p : Press) : Press × ButtonEvent :=
  (if p.dur.toNat < Config.durMax then { p with dur := p.dur + 1 } else p, .none)

/-- The event of a released press under the Edge policy (R197). -/
def edgeEvent (cfg : Config) (p : Press) : ButtonEvent :=
  if p.dur = 0 then .none
  else if p.voided then .none
  else if cfg.longPress ≤ p.dur.toNat then .longPress
  else if cfg.debounce ≤ p.dur.toNat then .click
  else .none

/-- ButtonStep_Edge(b, false) (R197). -/
def edgeReleased (cfg : Config) (p : Press) : Press × ButtonEvent :=
  (⟨0, false⟩, edgeEvent cfg p)

/-- A Click unless the press is voided (R200, R204). -/
def clickUnless (voided : Bool) : ButtonEvent := if voided then .none else .click

/-- ButtonStep_Hold(b, true): Click at DEBOUNCE, then at each repeat with the fold-back (R200). -/
def holdPressed (cfg : Config) (p : Press) : Press × ButtonEvent :=
  let d := p.dur + 1
  if d.toNat = cfg.debounce then (⟨d, p.voided⟩, clickUnless p.voided)
  else if d.toNat = cfg.holdThreshold + cfg.repeatInterval then
    (⟨BitVec.ofNat 16 cfg.holdThreshold, p.voided⟩, clickUnless p.voided)
  else (⟨d, p.voided⟩, .none)

/-- ButtonStep_Hold(b, false) (R201). -/
def holdReleased : Press × ButtonEvent := (⟨0, false⟩, .none)

/-- ButtonStep of the selected policy (R190). -/
def buttonStep (cfg : Config) (isPressed : Bool) (p : Press) : Press × ButtonEvent :=
  match cfg.policy, isPressed with
  | .edge, true => edgePressed p
  | .edge, false => edgeReleased cfg p
  | .hold, true => holdPressed cfg p
  | .hold, false => holdReleased

/-- The press registers of one button. -/
def press (s : State) (b : Idx) : Press := ⟨s.dur.get b, s.voided.get b⟩

/-- Write the press registers of one button. -/
def setPress (b : Idx) (p : Press) (s : State) : State :=
  { s with dur := s.dur.set b p.dur, voided := s.voided.set b p.voided }

/-- The latch write: a non-None event replaces what the latch held, None leaves it (R203). -/
def latch (b : Idx) (e : ButtonEvent) (s : State) : State :=
  match e with
  | .none => s
  | .click => { s with evt := s.evt.set b .click }
  | .longPress => { s with evt := s.evt.set b .longPress }

/-- A ButtonStep sub-step run by itself: the press registers, then its latch write (R203, log entry 10). -/
def subStepButton (b : Idx) (r : Press × ButtonEvent) (s : State) : State :=
  latch b r.2 (setPress b r.1 s)

/-- The gesture's condition (R202). -/
def gestureFires (s : State) : Bool :=
  decide (s.cfg.debounce ≤ s.dur.at0.toNat) && decide (s.cfg.debounce ≤ s.dur.at1.toNat)
    && !(s.voided.at0 && s.voided.at1)

/-- Gesture() (R202). -/
def applyGesture (s : State) : State :=
  if gestureFires s then
    { s with resetReq := true, evt := ⟨.none, .none⟩, voided := ⟨true, true⟩ }
  else s

end Sys2Proof.Machine
end

