-- ==== Sys2Proof/Machine/Bytes.lean ====
section
/-! DEFINITION. The meanings of the byte rows: a command byte or a segment byte is a byte on the wire, and running
its row sends it in a byte slot (30_encoding.md R90, R93 to R99; log entry 11). ENCODEDIGIT is a function and
delivers its result (41_display_driver.md R160; log entry 12). -/

namespace Sys2Proof.Machine

/-- CMD_DATA_AUTOINC (R93). -/
def execCmdDataAutoinc (s : State) : Host.Outcome State Fault Refusal :=
  .next (transmit [cmdDataAutoincByte] s)

/-- CMD_ADDR, position p (R94). -/
def execCmdAddr (p : BitVec 2) (s : State) : Host.Outcome State Fault Refusal :=
  .next (transmit [addrByte (p.setWidth 8)] s)

/-- CMD_CTRL, level l, display on (R95). -/
def execCmdCtrl (l : BitVec 3) (s : State) : Host.Outcome State Fault Refusal :=
  .next (transmit [ctrlByte l] s)

/-- SEGMENT_BYTE (R96, R97). -/
def execSegmentByte (b : Byte) (s : State) : Host.Outcome State Fault Refusal :=
  .next (transmit [b] s)

/-- ENCODEDIGIT: pure, writes no register of the block (41_display_driver.md R160). -/
def execEncodeDigit (d : Byte) (s : State) : Host.Outcome State Fault Refusal :=
  .next (deliver (encodeDigitByte d) s)

/-- GLYPH_0 (R98). -/
def execGlyph0 (s : State) : Host.Outcome State Fault Refusal := .next (transmit [segRom[0]] s)

/-- GLYPH_1 (R98). -/
def execGlyph1 (s : State) : Host.Outcome State Fault Refusal := .next (transmit [segRom[1]] s)

/-- GLYPH_2 (R98). -/
def execGlyph2 (s : State) : Host.Outcome State Fault Refusal := .next (transmit [segRom[2]] s)

/-- GLYPH_3 (R98). -/
def execGlyph3 (s : State) : Host.Outcome State Fault Refusal := .next (transmit [segRom[3]] s)

/-- GLYPH_4 (R98). -/
def execGlyph4 (s : State) : Host.Outcome State Fault Refusal := .next (transmit [segRom[4]] s)

/-- GLYPH_5 (R98). -/
def execGlyph5 (s : State) : Host.Outcome State Fault Refusal := .next (transmit [segRom[5]] s)

/-- GLYPH_6 (R98). -/
def execGlyph6 (s : State) : Host.Outcome State Fault Refusal := .next (transmit [segRom[6]] s)

/-- GLYPH_7 (R98). -/
def execGlyph7 (s : State) : Host.Outcome State Fault Refusal := .next (transmit [segRom[7]] s)

/-- GLYPH_8 (R98). -/
def execGlyph8 (s : State) : Host.Outcome State Fault Refusal := .next (transmit [segRom[8]] s)

/-- GLYPH_9 (R98). -/
def execGlyph9 (s : State) : Host.Outcome State Fault Refusal := .next (transmit [segRom[9]] s)

/-- GLYPH_MINUS (R99). -/
def execGlyphMinus (s : State) : Host.Outcome State Fault Refusal := .next (transmit [segMinus] s)

/-- GLYPH_BLANK (R99). -/
def execGlyphBlank (s : State) : Host.Outcome State Fault Refusal := .next (transmit [segBlank] s)

/-- DOT_FLAG: the segment bits x with the point ORed in (41_display_driver.md R161). -/
def execDotFlag (x : BitVec 7) (s : State) : Host.Outcome State Fault Refusal :=
  .next (transmit [withDot (x.setWidth 8)] s)

/-- OVERFLOW_FRAME: the four segment bytes of the parameter SEG_OVERFLOW, position 0 first (30_encoding.md R99;
41_display_driver.md R170). The row's code stays 40 40 40 40 where the parameter is another pattern (DESIGN CHOICE, log
entry 23). -/
def execOverflowFrame (s : State) : Host.Outcome State Fault Refusal :=
  .next (transmit s.cfg.segOverflow.toList s)

end Sys2Proof.Machine
end

