-- ==== Sys2Proof/Machine/Codes.lean ====
section
/-! DEFINITION. The meanings of the code rows: the code of an enumerated register's value is delivered
(30_encoding.md R100, R101; log entry 12). -/

namespace Sys2Proof.Machine

/-- ButtonEvent.None (R100). -/
def execEventNone (s : State) : Host.Outcome State Fault Refusal :=
  .next (deliver (codeByte (ButtonEvent.code .none)) s)

/-- ButtonEvent.Click (R100). -/
def execEventClick (s : State) : Host.Outcome State Fault Refusal :=
  .next (deliver (codeByte (ButtonEvent.code .click)) s)

/-- ButtonEvent.LongPress (R100). -/
def execEventLongPress (s : State) : Host.Outcome State Fault Refusal :=
  .next (deliver (codeByte (ButtonEvent.code .longPress)) s)

/-- RunState.Idle (R101). -/
def execRunIdle (s : State) : Host.Outcome State Fault Refusal :=
  .next (deliver (codeByte (RunState.code .idle)) s)

/-- RunState.ActiveLeft (R101). -/
def execRunActiveLeft (s : State) : Host.Outcome State Fault Refusal :=
  .next (deliver (codeByte (RunState.code .activeLeft)) s)

/-- RunState.ActiveRight (R101). -/
def execRunActiveRight (s : State) : Host.Outcome State Fault Refusal :=
  .next (deliver (codeByte (RunState.code .activeRight)) s)

end Sys2Proof.Machine
end

