-- ==== Sys2Proof/Machine/Driver.lean ====
section
/-! DEFINITION. The meanings of the driver operations (41_display_driver.md R162 to R173). -/

namespace Sys2Proof.Machine

/-- setBrightness(level), refused above 7 (R162). -/
def execSetBrightness (level : Byte) (s : State) : Host.Outcome State Fault Refusal :=
  if level.toNat ≤ 7 then .next (storeBrightness (level.extractLsb' 0 3) s) else .refused .levelOutOfRange

/-- displayRaw(f) (R163). -/
def execDisplayRaw (f : Frame) (s : State) : Host.Outcome State Fault Refusal :=
  .next (startFrame 0 f.toList s)

/-- displayAt(p, b), refused above position 3 (R164). -/
def execDisplayAt (p b : Byte) (s : State) : Host.Outcome State Fault Refusal :=
  if p.toNat ≤ 3 then .next (startFrame p [b] s) else .refused .positionOutOfRange

/-- displayNumber(v, z) = displayRaw(format(v, z)) (R166, R171). -/
def execDisplayNumber (v : BitVec 16) (z : Bool) (s : State) : Host.Outcome State Fault Refusal :=
  .next (startFrame 0 (format s.cfg v z).toList s)

/-- clear() = displayRaw of four blanks (R165; 30_encoding.md R109). -/
def execClear (s : State) : Host.Outcome State Fault Refusal :=
  .next (startFrame 0 [segBlank, segBlank, segBlank, segBlank] s)

/-- Select 5: refused, no step (30_encoding.md R105; 41_display_driver.md R173). -/
def execReservedSelect5 (_s : State) : Host.Outcome State Fault Refusal := .refused (.reservedSelect 5)

/-- Select 6: refused, no step (30_encoding.md R105; 41_display_driver.md R173). -/
def execReservedSelect6 (_s : State) : Host.Outcome State Fault Refusal := .refused (.reservedSelect 6)

/-- Select 7: refused, no step (30_encoding.md R105; 41_display_driver.md R173). -/
def execReservedSelect7 (_s : State) : Host.Outcome State Fault Refusal := .refused (.reservedSelect 7)

end Sys2Proof.Machine
end

