-- ==== Sys2Proof/Machine/Scoreboard.lean ====
section
/-! DEFINITION. The meanings of the main-loop steps and of the sub-steps of UPDATE (43_scoreboard.md). -/

namespace Sys2Proof.Machine

/-! ### UPDATE's transitions -/

/-- ApplyReset() (R233). -/
def applyReset (s : State) : State :=
  { s with score := ⟨s.cfg.scoreMax, s.cfg.scoreMax⟩, run := .idle }

/-- Idle to Active(j) (R234). -/
def activate (j : Idx) (s : State) : State :=
  { s with run := RunState.active j, stateTime := s.snapNow }

/-- What the event e of button j makes of the active side's score (R235 to R238). -/
def editScore (cfg : Config) (j : Idx) (e : ButtonEvent) (x : Fin 100) : Fin 100 :=
  match j, e with
  | .zero, .click => scoreDec x
  | .one, .click => scoreInc x
  | .zero, .longPress => scoreFloor
  | .one, .longPress => cfg.snapHigh
  | _, .none => x

/-- An event handled while side sd is active: the score and stateTime (R235 to R239). -/
def editActive (j : Idx) (e : ButtonEvent) (sd : Idx) (s : State) : State :=
  { s with
    score := s.score.set sd (editScore s.cfg j e (s.score.get sd))
    stateTime := s.snapNow }

/-- HandleEvent(j, e), e not None (R232). -/
def handleEvent (j : Idx) (e : ButtonEvent) (s : State) : State :=
  match s.run.side with
  | none => activate j s
  | some sd => editActive j e sd s

/-- `if snapEvt[j] != None then HandleEvent(j, snapEvt[j])` (R232). -/
def handleSnap (j : Idx) (s : State) : State :=
  match s.snapEvt.get j with
  | .none => s
  | .click => handleEvent j .click s
  | .longPress => handleEvent j .longPress s

/-- The timeout test is due: `run != Idle and (snapNow -w stateTime) >= STATE_DURATION` (R240). -/
def timeoutDue (s : State) : Bool :=
  decide (s.run ≠ .idle) && decide (s.cfg.stateDuration ≤ tickSub s.cfg.tickBits s.snapNow s.stateTime)

/-- Timeout (R240). -/
def applyTimeout (s : State) : State :=
  if timeoutDue s then { s with run := .idle } else s

/-- UPDATE without its phase write: reset, event 0, event 1, timeout (R232). -/
def updateBody (s : State) : State :=
  let s1 := if s.snapReset then applyReset s else s
  applyTimeout (handleSnap .one (handleSnap .zero s1))

/-! ### RENDER -/

/-- `lit` (R243). -/
def lit (cfg : Config) (snapNow : Nat) : Bool := decide (snapNow % cfg.blinkPeriod < cfg.blinkOn)

/-- The two bytes of one side (R242, R243). -/
def sidePair (cfg : Config) (run : RunState) (snapNow : Nat) (sd : Idx) (x : Fin 100) : Byte × Byte :=
  if run = RunState.active sd ∧ lit cfg snapNow = false then (segBlank, segBlank)
  else if x.val = 0 then (segMinus, segMinus)
  else (digitByte (x.val / 10), digitByte (x.val % 10))

/-- The separator dot of one position (R244). -/
def dotIf (dot : Bool) (b : Byte) : Byte := if dot then withDot b else b

/-- The frame, from {Score, RunState, tick phase} (R241 to R244). -/
def renderFrame (cfg : Config) (run : RunState) (snapNow : Nat) (score : Duo (Fin 100)) : Frame :=
  let l := sidePair cfg run snapNow .zero score.at0
  let r := sidePair cfg run snapNow .one score.at1
  ⟨dotIf cfg.sepDot.p0 l.1, dotIf cfg.sepDot.p1 l.2, dotIf cfg.sepDot.p2 r.1, dotIf cfg.sepDot.p3 r.2⟩

/-- The brightness of a run state (R245; 10_state.md R31). -/
def brightnessOf (cfg : Config) (run : RunState) : BitVec 3 :=
  if run = .idle then cfg.brightDim else cfg.brightNormal

/-! ### The main-loop steps -/

/-- POLL (R231). -/
def execPoll (s : State) : Host.Outcome State Fault Refusal :=
  inPhase .poll s { s with
    snapReset := s.resetReq
    resetReq := false
    snapEvt := s.evt
    evt := ⟨.none, .none⟩
    snapNow := s.now
    mphase := .update }

/-- UPDATE (R232). -/
def execUpdate (s : State) : Host.Outcome State Fault Refusal :=
  inPhase .update s { updateBody s with mphase := .render }

/-- RENDER (R241, R245). -/
def execRender (s : State) : Host.Outcome State Fault Refusal :=
  inPhase .render s { storeBrightness (brightnessOf s.cfg s.run) s with
    frame := renderFrame s.cfg s.run s.snapNow s.score
    mphase := .tx1 }

/-- TX1 (R246). -/
def execTx1 (s : State) : Host.Outcome State Fault Refusal :=
  inPhase .tx1 s { transact [cmdDataAutoincByte] s with mphase := .tx2 }

/-- TX2 (R246). -/
def execTx2 (s : State) : Host.Outcome State Fault Refusal :=
  inPhase .tx2 s { transact (addrByte 0 :: s.frame.toList) s with mphase := .tx3 }

/-- TX3 (R246). -/
def execTx3 (s : State) : Host.Outcome State Fault Refusal :=
  inPhase .tx3 s { transact [ctrlByte s.brightness] s with mphase := .wait }

/-- WAIT: "the main context takes no step while mphase = WAIT" (R247): the state stays as it is (log entry 21). -/
def execWait (s : State) : Host.Outcome State Fault Refusal := inPhase .wait s s

/-! ### The sub-steps of UPDATE run by themselves (log entry 10) -/

/-- An edit of the active side's score by the event e of button j; not enabled in Idle (R232, log entry 13). -/
def editOnly (j : Idx) (e : ButtonEvent) (s : State) : Host.Outcome State Fault Refusal :=
  match s.run.side with
  | none => .refused .notEnabled
  | some sd => .next (editActive j e sd s)

/-- A LongPress edit, Edge policy only: under the Hold policy "LongPress does not exist" (R237, R238;
42_tick_and_buttons.md R199; log entry 13). -/
def longPressEdit (j : Idx) (s : State) : Host.Outcome State Fault Refusal :=
  match s.cfg.policy with
  | .edge => editOnly j .longPress s
  | .hold => .refused .policyNotSelected

/-- UPDATE.ApplyReset (R233). -/
def execApplyReset (s : State) : Host.Outcome State Fault Refusal := .next (applyReset s)

/-- UPDATE.Activate, enabled in Idle (R234). -/
def execActivate (j : Idx) (s : State) : Host.Outcome State Fault Refusal :=
  match s.run with
  | .idle => .next (activate j s)
  | .activeLeft | .activeRight => .refused .notEnabled

/-- UPDATE.Click0.dec (R235, R239). -/
def execClick0Dec (s : State) : Host.Outcome State Fault Refusal := editOnly .zero .click s

/-- UPDATE.Click1.inc (R236, R239). -/
def execClick1Inc (s : State) : Host.Outcome State Fault Refusal := editOnly .one .click s

/-- UPDATE.LongPress0.floor, Edge policy only (R237, R239). -/
def execLongPress0Floor (s : State) : Host.Outcome State Fault Refusal := longPressEdit .zero s

/-- UPDATE.LongPress1.snap, Edge policy only (R238, R239). -/
def execLongPress1Snap (s : State) : Host.Outcome State Fault Refusal := longPressEdit .one s

/-- UPDATE.Timeout (R240). -/
def execTimeout (s : State) : Host.Outcome State Fault Refusal := .next (applyTimeout s)

end Sys2Proof.Machine
end

