-- ==== Sys2Proof/Machine/Tick.lean ====
section
/-! DEFINITION. The meanings of the TICK step and of its sub-steps (42_tick_and_buttons.md). TICK is the handler of
the one interrupt; see Ops.lean for its entry and return. -/

namespace Sys2Proof.Machine

/-- TICK(b0, b1), the parts in R190's order: clock, both ButtonSteps, both latch writes, gesture, wake. -/
def execTick (b0 b1 : Level) (s : State) : Host.Outcome State Fault Refusal :=
  let s1 := clockIncrement s
  let r0 := buttonStep s1.cfg (pressed b0) (press s1 .zero)
  let s2 := setPress .zero r0.1 s1
  let r1 := buttonStep s2.cfg (pressed b1) (press s2 .one)
  let s3 := setPress .one r1.1 s2
  let s4 := latch .zero r0.2 s3
  let s5 := latch .one r1.2 s4
  .next (wake (applyGesture s5))

/-- ButtonStep(b, true), Edge policy (R196). -/
def execButtonEdgePressed (b : Idx) (s : State) : Host.Outcome State Fault Refusal :=
  match s.cfg.policy with
  | .edge => .next (subStepButton b (edgePressed (press s b)) s)
  | .hold => .refused .policyNotSelected

/-- ButtonStep(b, false), Edge policy (R197). -/
def execButtonEdgeReleased (b : Idx) (s : State) : Host.Outcome State Fault Refusal :=
  match s.cfg.policy with
  | .edge => .next (subStepButton b (edgeReleased s.cfg (press s b)) s)
  | .hold => .refused .policyNotSelected

/-- ButtonStep(b, true), Hold policy (R200). -/
def execButtonHoldPressed (b : Idx) (s : State) : Host.Outcome State Fault Refusal :=
  match s.cfg.policy with
  | .hold => .next (subStepButton b (holdPressed s.cfg (press s b)) s)
  | .edge => .refused .policyNotSelected

/-- ButtonStep(b, false), Hold policy (R201). -/
def execButtonHoldReleased (b : Idx) (s : State) : Host.Outcome State Fault Refusal :=
  match s.cfg.policy with
  | .hold => .next (subStepButton b holdReleased s)
  | .edge => .refused .policyNotSelected

/-- Gesture(), both policies (R202). -/
def execGesture (s : State) : Host.Outcome State Fault Refusal := .next (applyGesture s)

end Sys2Proof.Machine
end

