-- ==== Sys2Proof/Machine/Wire.lean ====
section
/-! DEFINITION. The meanings of the wire primitives, of a transaction and of a frame (40_wire_protocol.md). -/

namespace Sys2Proof.Machine

/-- START (R131). -/
def execStart (s : State) : Host.Outcome State Fault Refusal :=
  .next { s with link := s.link.startCond }

/-- STOP (R132). -/
def execStop (s : State) : Host.Outcome State Fault Refusal :=
  .next { s with link := s.link.stopCond }

/-- WRBYTE(v) with the acknowledgment level of its ninth slot (R133 to R135; 30_encoding.md R90). -/
def execWrbyte (v : Byte) (k : Level) (s : State) : Host.Outcome State Fault Refusal :=
  .next { s with link := s.link.wrByte v k }

/-- TXN(B), B not empty (R136). -/
def execTxn (bytes : List Byte) (s : State) : Host.Outcome State Fault Refusal :=
  match bytes with
  | [] => .refused .emptyTransaction
  | b :: rest => .next (transact (b :: rest) s)

/-- SendSegments(p, d) (R137), refused outside 20_memory.md R69. -/
def execSendSegments (p : Byte) (d : List Byte) (s : State) : Host.Outcome State Fault Refusal :=
  if segmentsInRange p d then .next (startFrame p d s) else .refused .positionOutOfRange

end Sys2Proof.Machine
end

