-- ==== Sys2Proof/Machine/Dispatch.lean ====
section
/-! DEFINITION. One arm per row of spec/opcode_table.json. -/

namespace Sys2Proof.Machine

def exec (i : Instr) (s : State) : Host.Outcome State Fault Refusal :=
  match i with
  -- wire primitives
  | .start => Sys2Proof.Machine.execStart s
  | .stop => Sys2Proof.Machine.execStop s
  | .wrbyte v k => Sys2Proof.Machine.execWrbyte v k s
  | .txn bytes => Sys2Proof.Machine.execTxn bytes s
  | .sendSegments p d => Sys2Proof.Machine.execSendSegments p d s
  -- command bytes
  | .cmdDataAutoinc => Sys2Proof.Machine.execCmdDataAutoinc s
  | .cmdAddr p => Sys2Proof.Machine.execCmdAddr p s
  | .cmdCtrl l => Sys2Proof.Machine.execCmdCtrl l s
  -- segment bytes and the digit encoder
  | .segmentByte b => Sys2Proof.Machine.execSegmentByte b s
  | .encodeDigit d => Sys2Proof.Machine.execEncodeDigit d s
  | .glyph0 => Sys2Proof.Machine.execGlyph0 s
  | .glyph1 => Sys2Proof.Machine.execGlyph1 s
  | .glyph2 => Sys2Proof.Machine.execGlyph2 s
  | .glyph3 => Sys2Proof.Machine.execGlyph3 s
  | .glyph4 => Sys2Proof.Machine.execGlyph4 s
  | .glyph5 => Sys2Proof.Machine.execGlyph5 s
  | .glyph6 => Sys2Proof.Machine.execGlyph6 s
  | .glyph7 => Sys2Proof.Machine.execGlyph7 s
  | .glyph8 => Sys2Proof.Machine.execGlyph8 s
  | .glyph9 => Sys2Proof.Machine.execGlyph9 s
  | .glyphMinus => Sys2Proof.Machine.execGlyphMinus s
  | .glyphBlank => Sys2Proof.Machine.execGlyphBlank s
  | .dotFlag x => Sys2Proof.Machine.execDotFlag x s
  | .overflowFrame => Sys2Proof.Machine.execOverflowFrame s
  -- driver operations
  | .setBrightness level => Sys2Proof.Machine.execSetBrightness level s
  | .displayRaw f => Sys2Proof.Machine.execDisplayRaw f s
  | .displayAt p b => Sys2Proof.Machine.execDisplayAt p b s
  | .displayNumber v z => Sys2Proof.Machine.execDisplayNumber v z s
  | .clear => Sys2Proof.Machine.execClear s
  | .reservedSelect5 => Sys2Proof.Machine.execReservedSelect5 s
  | .reservedSelect6 => Sys2Proof.Machine.execReservedSelect6 s
  | .reservedSelect7 => Sys2Proof.Machine.execReservedSelect7 s
  -- the TICK step and its sub-steps
  | .tick b0 b1 => Sys2Proof.Machine.execTick b0 b1 s
  | .buttonEdgePressed b => Sys2Proof.Machine.execButtonEdgePressed b s
  | .buttonEdgeReleased b => Sys2Proof.Machine.execButtonEdgeReleased b s
  | .buttonHoldPressed b => Sys2Proof.Machine.execButtonHoldPressed b s
  | .buttonHoldReleased b => Sys2Proof.Machine.execButtonHoldReleased b s
  | .gesture => Sys2Proof.Machine.execGesture s
  -- the main loop
  | .poll => Sys2Proof.Machine.execPoll s
  | .update => Sys2Proof.Machine.execUpdate s
  | .render => Sys2Proof.Machine.execRender s
  | .tx1 => Sys2Proof.Machine.execTx1 s
  | .tx2 => Sys2Proof.Machine.execTx2 s
  | .tx3 => Sys2Proof.Machine.execTx3 s
  | .wait => Sys2Proof.Machine.execWait s
  -- the sub-steps of UPDATE
  | .applyReset => Sys2Proof.Machine.execApplyReset s
  | .activate j => Sys2Proof.Machine.execActivate j s
  | .click0Dec => Sys2Proof.Machine.execClick0Dec s
  | .click1Inc => Sys2Proof.Machine.execClick1Inc s
  | .longPress0Floor => Sys2Proof.Machine.execLongPress0Floor s
  | .longPress1Snap => Sys2Proof.Machine.execLongPress1Snap s
  | .timeout => Sys2Proof.Machine.execTimeout s
  -- codes of the enumerated registers
  | .eventNone => Sys2Proof.Machine.execEventNone s
  | .eventClick => Sys2Proof.Machine.execEventClick s
  | .eventLongPress => Sys2Proof.Machine.execEventLongPress s
  | .runIdle => Sys2Proof.Machine.execRunIdle s
  | .runActiveLeft => Sys2Proof.Machine.execRunActiveLeft s
  | .runActiveRight => Sys2Proof.Machine.execRunActiveRight s

end Sys2Proof.Machine
end

