-- ==== Sys2Proof/Machine/Schedule.lean ====
section
/-! DEFINITION. Which step is next (20_memory.md R73, R75; log entries 7, 8, 9): the stimulus script while it lasts,
then the block by itself under a free schedule. -/

namespace Sys2Proof.Machine

/-- The next step. -/
inductive Action where
  | run (i : Instr) (s : State)   -- this operation, from this state
  | send (s : State)              -- the next transaction of the driver operation in progress
  | refuse (r : Refusal)          -- no step

/-- The main-context step that mphase holds (10_state.md R36). -/
def phaseInstr : Phase → Instr
  | .poll => .poll
  | .update => .update
  | .render => .render
  | .tx1 => .tx1
  | .tx2 => .tx2
  | .tx3 => .tx3
  | .wait => .wait

/-- The main context's next step: the rest of a driver operation, then the step of the phase (40_wire_protocol.md R138;
43_scoreboard.md R230). -/
def mainAction (s : State) : Action :=
  if s.pending.isEmpty then .run (phaseInstr s.mphase) s else .send s

/-- The main context has no step: no driver operation in progress and the phase is WAIT (43_scoreboard.md R247). -/
def mainWaits (s : State) : Bool := s.pending.isEmpty && decide (s.mphase = .wait)

/-- The block by itself: a TICK step with free button levels, or the main context's next step; which of the two is
free, but in WAIT only a TICK step follows (20_memory.md R73, R75; 10_state.md R34). It may fall between a START and a
STOP that a script ran as rows and left open, the model's choice (DESIGN CHOICE, log entry 26). -/
def freeAction (s : State) : Action :=
  if Config.freeTick s.draws || mainWaits s then
    .run (.tick (Config.freeButton s.draws .zero) (Config.freeButton s.draws .one))
      { s with draws := s.draws + 1 }
  else mainAction { s with draws := s.draws + 1 }

/-- One operation of the script. A main-context operation begins when the driver operation in progress has sent its
last transaction; until then the script waits. A step of the tick context falls between transactions
(40_wire_protocol.md R138). START, WRBYTE, STOP and the byte rows are statements of their own, so that a script can put a
TICK between them, which no transaction of the block admits (DESIGN CHOICE, log entry 26). -/
def scriptAction (c : Code) (rest : List Stim) (s : State) : Action :=
  match decode c with
  | .error why => .refuse (.undecodable why)
  | .ok i =>
    if s.pending.isEmpty || i.tickContext then .run i { s with port := rest }
    else .send { s with port := .op c :: rest }

/-- How many bytes, and so acknowledgment samples, the main context's next step sends (40_wire_protocol.md R137;
43_scoreboard.md R246). -/
def mainSamples (s : State) : Nat :=
  match s.pending with
  | t :: _ => (pendingBytes s.brightness t).length
  | [] =>
    match s.mphase with
    | .tx1 => 1
    | .tx2 => 5
    | .tx3 => 1
    | .poll | .update | .render | .wait => 0

/-- The next n samples of an `M`: those its list gives, then 0, acknowledged (30_encoding.md R108). -/
def mainAcks (n : Nat) (ack : List Level) : List Level := (ack ++ List.replicate n Level.low).take n

/-- Acknowledgment levels lined up before those that already are. -/
def lineUp (as : List Level) (s : State) : State := { s with link := { s.link with dioIn := as ++ s.link.dioIn } }

/-- One main-context step of an `M`, with its samples; the rest of the `M` stays in front of the script. -/
def mainToWaitAction (ack : List Level) (rest : List Stim) (s : State) : Action :=
  mainAction (lineUp (mainAcks (mainSamples s) ack)
    { s with port := .mainToWait (ack.drop (mainSamples s)) :: rest })

/-- One TICK step of a `T` or an `L`, with the script from it on and what it leaves of the script. A statement begins when the one before it is over, so it waits until a driver
operation in progress has sent its last transaction (log entry 8). -/
def tickAction (b0 b1 : Level) (here rest : List Stim) (s : State) : Action :=
  if s.pending.isEmpty then .run (.tick b0 b1) { s with port := rest } else .send { s with port := here }

/-- The next step under a script (30_encoding.md R108). A statement with nothing left to do, a `T` or an `L` of no more
repetitions or an `M` in WAIT, takes no step. -/
def portAction (s : State) : List Stim → Action
  | [] => freeAction { s with port := [] }
  | .op c :: rest => scriptAction c rest s
  | .main :: rest => mainAction { s with port := rest }
  | .tick b0 b1 n :: rest =>
    match n with
    | 0 => portAction s rest
    | n + 1 => tickAction b0 b1 (.tick b0 b1 (n + 1) :: rest) (.tick b0 b1 n :: rest) s
  | .mainToWait ack :: rest => if mainWaits s then portAction s rest else mainToWaitAction ack rest s
  | .loop b0 b1 n :: rest =>
    match n with
    | 0 => portAction s rest
    | n + 1 =>
      tickAction b0 b1 (.loop b0 b1 (n + 1) :: rest) (.mainToWait [] :: .loop b0 b1 n :: rest) s

/-- The next step; a configuration that violates 00_scope.md R10 is refused. -/
def nextAction (s : State) : Action :=
  if s.cfg.ok then portAction s s.port else .refuse .badConfiguration

/-- The code a table word is presented as; a word of no row is presented as a code the decoder rejects. -/
def fetchCode (nbits w : Nat) : Code :=
  match tableCode nbits w with
  | some c => c
  | none => ⟨.command, []⟩

/-- The script with one operation put first, and no driver operation in progress, so that it is the next step. -/
def presentCode (c : Code) (s : State) : State :=
  { s with port := .op c :: s.port, pending := [] }

end Sys2Proof.Machine
end

