-- ==== Sys2Proof/Machine/Step.lean ====
section
/-! DEFINITION. One atomic step of the machine (20_memory.md R73), and the presentation of a table word. -/

namespace Sys2Proof.Machine

/-- One atomic step. -/
def step (s : State) : Host.Outcome State Fault Refusal :=
  match nextAction s with
  | .run i t => exec i t
  | .send t => .next (sendPending t)
  | .refuse r => .refused r

/-- The state whose next step runs the operation of a table word: the word is the first statement of the script, and no
driver operation is in progress (log entry 8). -/
def State.withFetchWord (s : State) (nbits w : Nat) : State := presentCode (fetchCode nbits w) s

end Sys2Proof.Machine
end

