-- ==== Sys2Proof/Machine/Observe.lean ====
section
/-! DEFINITION. What an observer reads from the wire trace: the level view (40_wire_protocol.md R140) and the bytes
a peer takes at the rising clock edges (R133; 20_memory.md R67); and what the peer's display lights (20_memory.md R66).
No rule of the block depends on them. -/

namespace Sys2Proof.Machine

/-- One state of the level view: the line registers, and the level of the data line where it is known. -/
structure LevelState where
  lines : Lines
  data  : Option Level
deriving DecidableEq, Repr

/-- The sample taken while the line registers stay at l, if one is. -/
def sampleAt (l : Lines) : List WireEvent → Option Level
  | [] => none
  | .s a :: _ => some a
  | e :: rest => if l.drive e = l then sampleAt l rest else none

/-- The level of the data line: the driven one; of a released line "the sample a where one is taken, and otherwise unknown
to the block" (R140). -/
def Lines.level (l : Lines) (sample : Option Level) : Option Level :=
  match l.dioDir with
  | .output => some l.dio
  | .input => sample

/-- The level view: `wire` replayed through R130, the events that leave all of `clk`, `dio`, `dioDir` unchanged dropped,
each remaining state with the level of the data line (R140). -/
def levelView (l : Lines) : List WireEvent → List LevelState
  | [] => []
  | e :: rest =>
    let m := l.drive e
    if m = l then levelView l rest else ⟨m, m.level (sampleAt m rest)⟩ :: levelView m rest

/-- A reader of the two lines: it knows the lines, the bits of the byte under way and the bytes read so far. -/
structure Tap where
  lines : Lines
  bits  : List Level
  bytes : List Byte
deriving DecidableEq, Repr

/-- The byte of bits read least significant first (20_memory.md R67). -/
def byteOfBits (bits : List Level) : Byte :=
  bits.foldr (fun b acc => (acc <<< 1) ||| (if b = .high then 1#8 else 0#8)) 0#8

/-- The reader at one event. At a rising clock edge it takes the level of a driven data line as a bit, and takes a
released data line as the acknowledgment slot that ends the byte (30_encoding.md R90). Data driven low while the clock
is high, the shape of a start condition, drops the bits of an unfinished byte. -/
def Tap.see (t : Tap) (e : WireEvent) : Tap :=
  let l := t.lines.drive e
  if t.lines.clk = .low ∧ l.clk = .high then
    match l.dioDir with
    | .output => { lines := l, bits := t.bits ++ [l.dio], bytes := t.bytes }
    | .input => { lines := l, bits := [], bytes := t.bytes ++ [byteOfBits t.bits] }
  else if e = .d0 ∧ l.clk = .high then { lines := l, bits := [], bytes := t.bytes }
  else { lines := l, bits := t.bits, bytes := t.bytes }

/-- The reader over a list of events. -/
def Tap.seeAll (t : Tap) (es : List WireEvent) : Tap := es.foldl Tap.see t

/-- The bytes read from events that begin on the idle bus. -/
def readBytes (es : List WireEvent) : List Byte := (Tap.seeAll ⟨Lines.idleBus, [], []⟩ es).bytes

/-- What a displayed digit can light: the segments a to g, and the point (20_memory.md R66; 30_encoding.md R96). -/
inductive Segment where
  | a
  | b
  | c
  | d
  | e
  | f
  | g
  | point
deriving DecidableEq, Repr

/-- The bit of a segment byte that lights it: 0..6 for a..g, 7 for the point (R66, R96). -/
def Segment.bit : Segment → Nat
  | .a => 0
  | .b => 1
  | .c => 2
  | .d => 3
  | .e => 4
  | .f => 5
  | .g => 6
  | .point => 7

/-- "The displayed digit at position p lights segment a..g for bits 0..6 of `pDisp[p]` and the point for bit 7"
(20_memory.md R66). -/
def Peer.lights (p : Peer) (position : Nat) (x : Segment) : Bool := (Memory.read p.disp position).getLsbD x.bit

/-- Acknowledgment levels erased: two traces that agree up to the levels of their samples (40_wire_protocol.md R135)
have equal erasures. -/
def eraseAck : WireEvent → WireEvent
  | .s _ => .s .low
  | .c0 => .c0
  | .c1 => .c1
  | .d0 => .d0
  | .d1 => .d1
  | .dz => .dz
  | .w => .w

/-- The acknowledgment samples of a trace, oldest first. -/
def samples : List WireEvent → List Level
  | [] => []
  | .s a :: rest => a :: samples rest
  | .c0 :: rest | .c1 :: rest | .d0 :: rest | .d1 :: rest | .dz :: rest | .w :: rest => samples rest

end Sys2Proof.Machine
end

