-- ==== Sys2Proof/Safety.lean ====
section
/-! DEFINITION. What claims about the machine speak of: the invariant of 10_state.md R41 with the model's own part,
runs of operations, the classes of operations, and the relation of two states that differ in acknowledgments. -/

namespace Sys2Proof

/-- The rows that are pieces of a transaction: run by themselves they leave the bus inside one. -/
def Instr.isWirePiece (i : Instr) : Bool :=
  match i with
  | .start | .stop | .wrbyte _ _ | .cmdDataAutoinc | .cmdAddr _ | .cmdCtrl _ | .segmentByte _
  | .glyph0 | .glyph1 | .glyph2 | .glyph3 | .glyph4 | .glyph5 | .glyph6 | .glyph7 | .glyph8
  | .glyph9 | .glyphMinus | .glyphBlank | .dotFlag _ | .overflowFrame => true
  | .txn _ | .sendSegments _ _ | .encodeDigit _ | .setBrightness _ | .displayRaw _ | .displayAt _ _
  | .displayNumber _ _ | .clear | .reservedSelect5 | .reservedSelect6 | .reservedSelect7 | .tick _ _
  | .buttonEdgePressed _ | .buttonEdgeReleased _ | .buttonHoldPressed _ | .buttonHoldReleased _
  | .gesture | .poll | .update | .render | .tx1 | .tx2 | .tx3 | .wait | .applyReset | .activate _
  | .click0Dec | .click1Inc | .longPress0Floor | .longPress1Snap | .timeout | .eventNone
  | .eventClick | .eventLongPress | .runIdle | .runActiveLeft | .runActiveRight => false

/-- The rows that send whole transactions (40_wire_protocol.md R136, R137; 43_scoreboard.md R246). -/
def Instr.isTransaction (i : Instr) : Bool :=
  match i with
  | .txn _ | .sendSegments _ _ | .displayRaw _ | .displayAt _ _ | .displayNumber _ _ | .clear
  | .tx1 | .tx2 | .tx3 => true
  | .start | .stop | .wrbyte _ _ | .cmdDataAutoinc | .cmdAddr _ | .cmdCtrl _ | .segmentByte _
  | .glyph0 | .glyph1 | .glyph2 | .glyph3 | .glyph4 | .glyph5 | .glyph6 | .glyph7 | .glyph8
  | .glyph9 | .glyphMinus | .glyphBlank | .dotFlag _ | .overflowFrame | .encodeDigit _
  | .setBrightness _ | .reservedSelect5 | .reservedSelect6 | .reservedSelect7 | .tick _ _
  | .buttonEdgePressed _ | .buttonEdgeReleased _ | .buttonHoldPressed _ | .buttonHoldReleased _
  | .gesture | .poll | .update | .render | .wait | .applyReset | .activate _ | .click0Dec
  | .click1Inc | .longPress0Floor | .longPress1Snap | .timeout | .eventNone | .eventClick
  | .eventLongPress | .runIdle | .runActiveLeft | .runActiveRight => false

/-- UPDATE and its sub-steps: the writers of `score`, `run` and `stateTime` (10_state.md R21, R27, R29). -/
def Instr.isUpdate (i : Instr) : Bool :=
  match i with
  | .update | .applyReset | .activate _ | .click0Dec | .click1Inc | .longPress0Floor
  | .longPress1Snap | .timeout => true
  | .start | .stop | .wrbyte _ _ | .txn _ | .sendSegments _ _ | .cmdDataAutoinc | .cmdAddr _
  | .cmdCtrl _ | .segmentByte _ | .encodeDigit _ | .glyph0 | .glyph1 | .glyph2 | .glyph3 | .glyph4
  | .glyph5 | .glyph6 | .glyph7 | .glyph8 | .glyph9 | .glyphMinus | .glyphBlank | .dotFlag _
  | .overflowFrame | .setBrightness _ | .displayRaw _ | .displayAt _ _ | .displayNumber _ _ | .clear
  | .reservedSelect5 | .reservedSelect6 | .reservedSelect7 | .tick _ _ | .buttonEdgePressed _
  | .buttonEdgeReleased _ | .buttonHoldPressed _ | .buttonHoldReleased _ | .gesture | .poll | .render
  | .tx1 | .tx2 | .tx3 | .wait | .eventNone | .eventClick | .eventLongPress | .runIdle
  | .runActiveLeft | .runActiveRight => false

/-- The byte a command-byte or segment-byte row stands for, as the spec's encoding tables give it (30_encoding.md R93
to R99; 41_display_driver.md R161). -/
def Instr.rowByte (i : Instr) : Option Byte :=
  match i with
  | .cmdDataAutoinc => some 0b01000000
  | .cmdAddr p => some (0b110000#6 ++ p)
  | .cmdCtrl l => some (0b10001#5 ++ l)
  | .segmentByte b => some b
  | .glyph0 => some 0b00111111
  | .glyph1 => some 0b00000110
  | .glyph2 => some 0b01011011
  | .glyph3 => some 0b01001111
  | .glyph4 => some 0b01100110
  | .glyph5 => some 0b01101101
  | .glyph6 => some 0b01111101
  | .glyph7 => some 0b00000111
  | .glyph8 => some 0b01111111
  | .glyph9 => some 0b01101111
  | .glyphMinus => some 0b01000000
  | .glyphBlank => some 0b00000000
  | .dotFlag x => some (0b1#1 ++ x)
  | .start | .stop | .wrbyte _ _ | .txn _ | .sendSegments _ _ | .encodeDigit _ | .overflowFrame
  | .setBrightness _ | .displayRaw _ | .displayAt _ _ | .displayNumber _ _ | .clear
  | .reservedSelect5 | .reservedSelect6 | .reservedSelect7 | .tick _ _ | .buttonEdgePressed _
  | .buttonEdgeReleased _ | .buttonHoldPressed _ | .buttonHoldReleased _ | .gesture | .poll | .update
  | .render | .tx1 | .tx2 | .tx3 | .wait | .applyReset | .activate _ | .click0Dec | .click1Inc
  | .longPress0Floor | .longPress1Snap | .timeout | .eventNone | .eventClick | .eventLongPress
  | .runIdle | .runActiveLeft | .runActiveRight => none

/-- The value a pure row delivers, as the spec's tables give it (30_encoding.md R98 to R101; 41_display_driver.md
R160). -/
def Instr.rowValue (i : Instr) : Option Byte :=
  match i with
  | .encodeDigit d =>
    some (([0x3F, 0x06, 0x5B, 0x4F, 0x66, 0x6D, 0x7D, 0x07, 0x7F, 0x6F] : List Byte).getD d.toNat 0x40)
  | .eventNone => some 0
  | .eventClick => some 1
  | .eventLongPress => some 2
  | .runIdle => some 0
  | .runActiveLeft => some 1
  | .runActiveRight => some 2
  | .start | .stop | .wrbyte _ _ | .txn _ | .sendSegments _ _ | .cmdDataAutoinc | .cmdAddr _
  | .cmdCtrl _ | .segmentByte _ | .glyph0 | .glyph1 | .glyph2 | .glyph3 | .glyph4 | .glyph5 | .glyph6
  | .glyph7 | .glyph8 | .glyph9 | .glyphMinus | .glyphBlank | .dotFlag _ | .overflowFrame
  | .setBrightness _ | .displayRaw _ | .displayAt _ _ | .displayNumber _ _ | .clear
  | .reservedSelect5 | .reservedSelect6 | .reservedSelect7 | .tick _ _ | .buttonEdgePressed _
  | .buttonEdgeReleased _ | .buttonHoldPressed _ | .buttonHoldReleased _ | .gesture | .poll | .update
  | .render | .tx1 | .tx2 | .tx3 | .wait | .applyReset | .activate _ | .click0Dec | .click1Inc
  | .longPress0Floor | .longPress1Snap | .timeout => none

end Sys2Proof

namespace Sys2Proof.Machine

/-- A driver operation in progress has its last one or two transactions to send, in range (40_wire_protocol.md R137,
R138). -/
def pendingShape : List Pending → Bool
  | [] => true
  | [.ctrl] => true
  | [.addr p d, .ctrl] => segmentsInRange p d
  | _ => false

/-- The invariant: 10_state.md R41 (3), (4), (5), the widths of the tick registers (R28, R29, R37), and the canonical
form of the peer's memory. R41 (1), (2), (7) and the 16-bit half of (3) hold by the types. -/
structure State.Inv (s : State) : Prop where
  now_lt : s.now < 2 ^ s.cfg.tickBits
  stateTime_lt : s.stateTime < 2 ^ s.cfg.tickBits
  snapNow_lt : s.snapNow < 2 ^ s.cfg.tickBits
  voided_held : ∀ b, s.voided.get b = true → s.cfg.debounce ≤ (s.dur.get b).toNat
  hold_bound : s.cfg.policy = .hold →
    ∀ b, (s.dur.get b).toNat < s.cfg.holdThreshold + s.cfg.repeatInterval
  longPress_edge : s.cfg.policy = .hold →
    ∀ b, s.evt.get b ≠ .longPress ∧ s.snapEvt.get b ≠ .longPress
  disp_wf : Memory.wf s.link.peer.disp = true
  disp_in : Memory.inDisp s.link.peer.disp = true
  pending_shape : pendingShape s.pending = true

/-- The bus is idle and no transaction is open (10_state.md R41 (6); 40_wire_protocol.md R139 (1)). -/
def State.busIdle (s : State) : Prop := s.link.lines = Lines.idleBus ∧ s.link.rx = .closed

/-- Operations run in order, stopping at the first fault or refusal. -/
def runAll : List Instr → State → Host.Outcome State Fault Refusal
  | [], s => .next s
  | i :: rest, s =>
    match exec i s with
    | .next t => runAll rest t
    | .fault r => .fault r
    | .refused r => .refused r

/-- n TICK steps with constant button levels: `T b0 b1 * n` (30_encoding.md R108). -/
def ticks (n : Nat) (b0 b1 : Level) : List Instr := List.replicate n (.tick b0 b1)

/-- The main-loop row of a phase and the next phase of the cycle (43_scoreboard.md R230). -/
def Phase.next : Phase → Phase
  | .poll => .update
  | .update => .render
  | .render => .tx1
  | .tx1 => .tx2
  | .tx2 => .tx3
  | .tx3 => .wait
  | .wait => .wait

/-- The row that handles an event of button j in a run state; none for no event (43_scoreboard.md R232). -/
def eventRow (run : RunState) (j : Idx) : ButtonEvent → Option Instr
  | .none => none
  | .click =>
    match run, j with
    | .idle, j => some (.activate j)
    | _, .zero => some .click0Dec
    | _, .one => some .click1Inc
  | .longPress =>
    match run, j with
    | .idle, j => some (.activate j)
    | _, .zero => some .longPress0Floor
    | _, .one => some .longPress1Snap

/-- A row that may be absent. -/
def runOption (i : Option Instr) (s : State) : Host.Outcome State Fault Refusal :=
  match i with
  | none => .next s
  | some i => exec i s

/-- The ButtonStep row of the selected policy for one sampled level (42_tick_and_buttons.md R190). -/
def buttonRow (policy : BtnPolicy) (b : Idx) (level : Level) : Instr :=
  match policy, level with
  | .edge, .low => .buttonEdgePressed b
  | .edge, .high => .buttonEdgeReleased b
  | .hold, .low => .buttonHoldPressed b
  | .hold, .high => .buttonHoldReleased b

/-- Two states that agree in everything but acknowledgments and what the peer makes of them: the levels lined up, the
sample values in the trace, the peer (40_wire_protocol.md R135). -/
def sameButAck (s t : State) : Prop :=
  s = { t with link := s.link } ∧ s.link.lines = t.link.lines
    ∧ s.link.wire.map eraseAck = t.link.wire.map eraseAck

/-- The pressed samples at which a press held under the Hold policy produces a Click: DEBOUNCE and
HOLD_THRESHOLD + k*REPEAT_INTERVAL, k >= 1 (42_tick_and_buttons.md R200). -/
def holdClickAt (cfg : Config) (n : Nat) : Prop :=
  n = cfg.debounce ∨ ∃ k, 1 ≤ k ∧ n = cfg.holdThreshold + k * cfg.repeatInterval

end Sys2Proof.Machine
end

