-- ==== Sys2Proof/Certificates/Slice0/Obligations.lean ====
section
/-! DEFINITION. The statements for the provers, grouped as the spec is: reset and steps, encodings, the wire, the
driver, the tick context, the main loop, and the rules about the whole machine. -/

open Sys2Proof Sys2Proof.Machine

/-! ### Reset and steps -/

/-- 10_state.md R42: every value of the reset table, for every value of what the table leaves unspecified, and
SCORE_MAX = 20 in `State.reset`. -/
def Obligations.ResetStateHoldsTheResetTable : Prop :=
  (∀ (cfg : Config) (now stateTime snapNow : Nat) (snapReset : Bool) (snapEvt : Duo ButtonEvent)
      (frame : Frame) (peer : Peer),
    let s := State.resetWith cfg now stateTime snapNow snapReset snapEvt frame peer
    s.score = ⟨cfg.scoreMax, cfg.scoreMax⟩ ∧ s.run = .idle ∧ s.dur = ⟨0, 0⟩
      ∧ s.evt = ⟨.none, .none⟩ ∧ s.resetReq = false ∧ s.voided = ⟨false, false⟩
      ∧ s.now = now ∧ s.stateTime = stateTime ∧ s.brightness = cfg.brightDim
      ∧ s.link.lines.clk = .high ∧ s.link.lines.dioDir = .output ∧ s.link.lines.dio = .high
      ∧ s.mphase = .poll ∧ s.snapReset = snapReset ∧ s.snapEvt = snapEvt ∧ s.snapNow = snapNow
      ∧ s.frame = frame ∧ s.link.wire = [] ∧ s.link.peer = peer)
  ∧ State.reset.score = ⟨20, 20⟩ ∧ State.reset.run = .idle

/-- The invariant holds at reset: for every configuration of 00_scope.md R10, every tick value of the configured
width, every frame and every peer in canonical form; `snapEvt` is None (log entry 3), a dead value. -/
def Obligations.ResetMeetsTheInvariant : Prop :=
  ∀ (cfg : Config) (now stateTime snapNow : Nat) (snapReset : Bool) (frame : Frame) (peer : Peer),
    cfg.ok = true → now < 2 ^ cfg.tickBits → stateTime < 2 ^ cfg.tickBits →
    snapNow < 2 ^ cfg.tickBits → Memory.wf peer.disp = true → Memory.inDisp peer.disp = true →
    (State.resetWith cfg now stateTime snapNow snapReset ⟨.none, .none⟩ frame peer).Inv
      ∧ (State.resetWith cfg now stateTime snapNow snapReset ⟨.none, .none⟩ frame peer).busIdle

/-- 10_state.md R41 (3), (4), (5) and the widths of the tick registers, with the model's own part: every step keeps the
invariant, from every state that meets it. -/
def Obligations.EveryStepKeepsTheInvariant : Prop :=
  ∀ s t : State, s.Inv → step s = .next t → t.Inv

/-- A step runs what the script's first statement says (30_encoding.md R108; the script as a field of the state is the
model's choice, log entry 8). An operation that its code decodes to, whenever no driver operation is in progress or it is
of the tick context; the statement is removed from the script. With no driver operation in progress: `T` and `L` run one
TICK step, `L` with an `M` to follow; `M` runs the main-context step of the phase, each of its acknowledgment samples the
next of its list, and 0 where the list gives none. A statement with nothing left to do, `M` in WAIT among them, takes no
step. -/
def Obligations.StepRunsTheScriptsOperation : Prop :=
  ∀ (s : State) (rest : List Stim), s.cfg.ok = true →
    (∀ (c : Code) (i : Instr), s.port = .op c :: rest → decode c = .ok i →
      (s.pending = [] ∨ i.tickContext = true) →
      step s = exec i { s with port := rest })
    ∧ (∀ (b0 b1 : Level) (n : Nat), s.port = .tick b0 b1 (n + 1) :: rest → s.pending = [] →
      step s = exec (.tick b0 b1) { s with port := .tick b0 b1 n :: rest })
    ∧ (∀ (b0 b1 : Level) (n : Nat), s.port = .loop b0 b1 (n + 1) :: rest → s.pending = [] →
      step s = exec (.tick b0 b1) { s with port := .mainToWait [] :: .loop b0 b1 n :: rest })
    ∧ (∀ ack : List Level, s.port = .mainToWait ack :: rest → s.pending = [] → s.mphase ≠ .wait →
      let k := match s.mphase with
        | .tx1 => 1
        | .tx2 => 5
        | .tx3 => 1
        | .poll => 0
        | .update => 0
        | .render => 0
        | .wait => 0
      step s = exec (phaseInstr s.mphase) { s with
        port := .mainToWait (ack.drop k) :: rest
        link := { s.link with dioIn := (ack ++ List.replicate k Level.low).take k ++ s.link.dioIn } })
    ∧ (∀ st : Stim, s.port = st :: rest →
      ((∃ b0 b1, st = .tick b0 b1 0) ∨ (∃ b0 b1, st = .loop b0 b1 0)
        ∨ ((∃ ack, st = .mainToWait ack) ∧ s.pending = [] ∧ s.mphase = .wait)) →
      step s = step { s with port := rest })

/-- A table word that decodes to an operation is run by the very next step, and nothing but the driver operation in
progress is given up for it (log entry 8). -/
def Obligations.PresentedWordIsTheNextStep : Prop :=
  ∀ (s : State) (nbits w : Nat) (i : Instr),
    s.cfg.ok = true → decodeTableWord nbits w = some i →
    step (s.withFetchWord nbits w) = exec i { s with pending := [] }

/-- 40_wire_protocol.md R138, R137: while a driver operation is in progress, a main-context operation of the script
waits, and so do a `T` and an `L`, and the step is the next of its transactions; the script stays as it is (log entries 8
and 9). An `M` sends it as its own step, with its samples. -/
def Obligations.ScriptWaitsForTheDriverOperation : Prop :=
  ∀ (s : State) (st : Stim) (rest : List Stim) (p : Pending) (ps : List Pending),
    s.cfg.ok = true → s.port = st :: rest → s.pending = p :: ps →
    let bytes : List Byte := match p with
      | .data => [0x40]
      | .addr q d => (0xC0 + q) :: d
      | .ctrl => [0x88 + s.brightness.setWidth 8]
    (((∃ c i, st = .op c ∧ decode c = .ok i ∧ i.tickContext = false)
        ∨ (∃ b0 b1 n, st = .tick b0 b1 (n + 1)) ∨ (∃ b0 b1 n, st = .loop b0 b1 (n + 1))) →
      step s = .next { s with pending := ps, link := s.link.transact bytes })
    ∧ (∀ ack : List Level, st = .mainToWait ack →
      step s = .next { s with
        port := .mainToWait (ack.drop bytes.length) :: rest
        pending := ps
        link := Link.transact { s.link with
          dioIn := (ack ++ List.replicate bytes.length Level.low).take bytes.length ++ s.link.dioIn } bytes })

/-- 20_memory.md R73, R75; 43_scoreboard.md R247: a step of the block by itself is a TICK step, or the next transaction
of a driver operation, or the main-context step of mphase, and in WAIT it is a TICK step; in each case it has a next
state, so the block never stops. The schedule and the levels are free values (log entry 7). -/
def Obligations.BlockByItselfAlwaysSteps : Prop :=
  ∀ s : State, s.cfg.ok = true → s.port = [] →
    (∃ t, step s = .next t ∧ t.cfg = s.cfg ∧ t.port = []) ∧
    ((∃ b0 b1, step s = exec (.tick b0 b1) { s with draws := s.draws + 1 })
      ∨ (s.pending ≠ [] ∧ step s = .next (sendPending { s with draws := s.draws + 1 }))
      ∨ (s.pending = [] ∧ s.mphase ≠ .wait
          ∧ step s = exec (phaseInstr s.mphase) { s with draws := s.draws + 1 }))

/-- 43_scoreboard.md R247, 42_tick_and_buttons.md R193: in WAIT the main context takes no step; the block's next step
is a TICK step and it sets mphase to POLL. -/
def Obligations.WaitIsLeftByATickOnly : Prop :=
  ∀ s : State, s.cfg.ok = true → s.port = [] → s.pending = [] → s.mphase = .wait →
    ∃ b0 b1 t, step s = exec (.tick b0 b1) { s with draws := s.draws + 1 } ∧ step s = .next t
      ∧ t.mphase = .poll

/-- 00_scope.md R10: "A model should refuse a configuration that violates one", with the constraint column of R9 for
TICK_BITS and BRIGHT_NORMAL. -/
def Obligations.BadConfigurationIsRefused : Prop :=
  ∀ s : State,
    (s.cfg.debounce < 1 ∨ s.cfg.longPress < s.cfg.debounce ∨ 65535 < s.cfg.longPress
      ∨ s.cfg.holdThreshold < s.cfg.debounce ∨ s.cfg.repeatInterval < 1
      ∨ 65535 < s.cfg.holdThreshold + s.cfg.repeatInterval
      ∨ s.cfg.blinkOn < 1 ∨ s.cfg.blinkPeriod ≤ s.cfg.blinkOn
      ∨ 2 ^ s.cfg.tickBits ≤ s.cfg.blinkPeriod ∨ 2 ^ s.cfg.tickBits ≤ s.cfg.stateDuration
      ∨ s.cfg.tickBits < 12 ∨ s.cfg.brightDim = s.cfg.brightNormal) →
    step s = .refused .badConfiguration

/-! ### Encodings -/

/-- Words written out from the spec's encodings (30_encoding.md R90 to R103) decode to the rows they stand for, one or
more of each format. The model's own, DESIGN CHOICE: the operand bytes beside a code (the second byte of the byte slot and
of displayAt, the bytes of a transaction, a frame and a TICK) and the numbers of the sub-steps, log entry 17; 0x40 in the
segment format read as GLYPH_MINUS, log entry 18; the overflow frame's code, log entry 23. -/
def Obligations.WordsOfTheSpecDecode : Prop :=
  decode ⟨.waveform, [0b11, 0b10, 0b00]⟩ = .ok .start
    ∧ decode ⟨.waveform, [0b10, 0b00, 0b00, 0b10, 0b11]⟩ = .ok .stop
    ∧ decode ⟨.byteSlot, [0b10001111, 1]⟩ = .ok (.wrbyte 0x8F .high)
    ∧ decode ⟨.command, [0b01000000]⟩ = .ok .cmdDataAutoinc
    ∧ decode ⟨.command, [0b11000010]⟩ = .ok (.cmdAddr 2)
    ∧ decode ⟨.command, [0b10001101]⟩ = .ok (.cmdCtrl 5)
    ∧ decode ⟨.command, [0b01000100]⟩ = .error .noSuchCode
    ∧ decode ⟨.segment, [0b01000000]⟩ = .ok .glyphMinus
    ∧ decode ⟨.segment, [0b01100110]⟩ = .ok .glyph4
    ∧ decode ⟨.segment, [0b10000110]⟩ = .ok (.dotFlag 0b0000110)
    ∧ decode ⟨.overflow, [0x40, 0x40, 0x40, 0x40]⟩ = .ok .overflowFrame
    ∧ decode ⟨.transaction, [0b01000000]⟩ = .ok (.txn [0x40])
    ∧ decode ⟨.frame, [2, 0x6D]⟩ = .ok (.sendSegments 2 [0x6D])
    ∧ decode ⟨.digit, [7]⟩ = .ok (.encodeDigit 7)
    ∧ decode ⟨.tick, [0, 1]⟩ = .ok (.tick .low .high)
    ∧ decode ⟨.subStep, [4]⟩ = .ok .gesture
    ∧ decode ⟨.driver, [0b010, 2, 0x6D]⟩ = .ok (.displayAt 2 0x6D)
    ∧ decode ⟨.driver, [0b101]⟩ = .ok .reservedSelect5
    ∧ decode ⟨.mainStep, [0b101]⟩ = .ok .tx3
    ∧ decode ⟨.mainStep, [0b111]⟩ = .error .noSuchCode
    ∧ decode ⟨.eventCode, [0b10]⟩ = .ok .eventLongPress
    ∧ decode ⟨.runCode, [0b11]⟩ = .error .noSuchCode

/-- Decode and encode agree: every well-formed operation, with every operand, is read back from its encoding. -/
def Obligations.DecodeReadsBackEveryEncoding : Prop :=
  ∀ i : Instr, i.wf = true → decode (encode i) = .ok i

/-- The other direction: an accepted code is the encoding of what it decodes to, so no two codes of one format mean the
same operation and no bit of an accepted code is ignored. -/
def Obligations.AcceptedCodeIsAnEncoding : Prop :=
  ∀ (c : Code) (i : Instr), decode c = .ok i → encode i = c

/-! ### The wire -/

/-- 40_wire_protocol.md R131: START appends `D0 C0` and leaves clk = 0, dioDir = Out, dio = 0; nothing else of the
block changes. The model's own: it does so from every line state, where R131 has the bus idle (DESIGN CHOICE, log entry
14), the peer's reception opens (20_memory.md R66, PRESUMED, log entry 16), and an unfinished one is dropped (DESIGN
CHOICE, log entry 24). -/
def Obligations.StartAppendsItsTwoEvents : Prop :=
  ∀ s : State, exec .start s = .next { s with
    link := { s.link with
      lines := ⟨.low, .low, .output⟩
      wire := s.link.wire ++ [.d0, .c0]
      rx := .receiving [] true } }

/-- 40_wire_protocol.md R132: STOP appends `C0 D0 C1 D1` and leaves the bus idle; nothing of the block changes outside
the link. The model's own: it does so from every line state, where R132 has it after a WRBYTE (DESIGN CHOICE, log entry
14), and the peer's reception closes (PRESUMED, log entry 16). -/
def Obligations.StopLeavesTheBusIdle : Prop :=
  ∀ s : State, ∃ t, exec .stop s = .next t ∧ t = { s with link := t.link }
    ∧ t.link.wire = s.link.wire ++ [.c0, .d0, .c1, .d1]
    ∧ t.link.lines = ⟨.high, .high, .output⟩ ∧ t.link.rx = .closed ∧ t.link.dioIn = s.link.dioIn

/-- 40_wire_protocol.md R133, R134: the 30 events of WRBYTE(v), least significant bit first, then the acknowledgment
slot with the level of the environment, for every byte, level and line state; the postcondition clk = 1, dioDir = Out,
dio = 0; nothing else of the block changes. -/
def Obligations.WrbyteAppendsItsThirtyEvents : Prop :=
  ∀ (s : State) (v : Byte) (a : Level),
    let bit : Nat → WireEvent := fun i => if v.toNat / 2 ^ i % 2 = 1 then .d1 else .d0
    ∃ t, exec (.wrbyte v a) s = .next t ∧ t = { s with link := t.link }
      ∧ t.link = { s.link with lines := t.link.lines, wire := t.link.wire, rx := t.link.rx }
      ∧ t.link.lines = ⟨.high, .low, .output⟩
      ∧ t.link.wire = s.link.wire ++
        [.c0, bit 0, .c1, .c0, bit 1, .c1, .c0, bit 2, .c1, .c0, bit 3, .c1,
         .c0, bit 4, .c1, .c0, bit 5, .c1, .c0, bit 6, .c1, .c0, bit 7, .c1,
         .c0, .dz, .c1, .w, .s a, .d0]

/-- 40_wire_protocol.md R136: TXN(B) draws one sample per byte and appends 2 + 30*(n+1) + 4 events; the bus is idle after
it, and nothing of the block changes outside the link. It is START, WRBYTE of each byte in order, STOP, each byte with
the acknowledgment level that the environment has lined up for it. The model's own: from every line state, where R136 has
the bus idle (DESIGN CHOICE, log entry 14), the levels lined up in `link.dioIn` (DESIGN CHOICE, log entry 5), the closed
reception (PRESUMED, log entry 16). -/
def Obligations.TransactionIsStartBytesStop : Prop :=
  (∀ (s : State) (bytes : List Byte), bytes ≠ [] →
    ∃ t es, exec (.txn bytes) s = .next t ∧ t = { s with link := t.link }
      ∧ t.link.lines = ⟨.high, .high, .output⟩ ∧ t.link.rx = .closed
      ∧ t.link.wire = s.link.wire ++ es ∧ es.length = 2 + 30 * bytes.length + 4
      ∧ (samples es).length = bytes.length)
  ∧ (∀ (s : State) (bytes : List Byte) (as rest : List Level),
    bytes ≠ [] → as.length = bytes.length → s.link.dioIn = as ++ rest →
    ∃ t, exec (.txn bytes) s = .next t ∧
      runAll (.start :: List.zipWith Instr.wrbyte bytes as ++ [.stop])
        { s with link := { s.link with dioIn := rest } } = .next t)

/-- 20_memory.md R67, 40_wire_protocol.md R133: a peer that takes a bit at each rising clock edge reads from the events
of a transaction exactly the bytes sent, in order, whatever the acknowledgments; and the levels of the released data line
that the level view (R140) knows are the acknowledgment samples, in order. -/
def Obligations.BytesAreReadBackFromTheWire : Prop :=
  ∀ (s t : State) (bytes : List Byte) (es : List WireEvent),
    exec (.txn bytes) s = .next t → t.link.wire = s.link.wire ++ es → readBytes es = bytes
      ∧ (levelView Lines.idleBus es).filterMap (fun v => if v.lines.dioDir = .input then v.data else none)
        = samples es

/-- 40_wire_protocol.md R135, 60_exceptions.md R271: acknowledgments change nothing but themselves. Two states that agree
in everything else, run any one operation and agree in everything else again: same outcome, same registers, same events;
and so they do when WRBYTE of one byte runs with sample a in the one and b in the other, 0 and 1 for example. -/
def Obligations.AcknowledgmentsAreDiscarded : Prop :=
  ∀ (i : Instr) (s s' : State), sameButAck s s' →
    (∀ t, exec i s = .next t → ∃ t', exec i s' = .next t' ∧ sameButAck t t')
      ∧ (∀ r, exec i s = .refused r → exec i s' = .refused r)
      ∧ (∀ (v : Byte) (a b : Level), ∃ t t', exec (.wrbyte v a) s = .next t ∧ exec (.wrbyte v b) s' = .next t'
        ∧ sameButAck t t')

/-- 20_memory.md R79, 10_state.md R40: the trace is append-only, in every step. -/
def Obligations.TraceOnlyGrows : Prop :=
  ∀ s t : State, step s = .next t → ∃ es, t.link.wire = s.link.wire ++ es

/-- 40_wire_protocol.md R139 (1), 10_state.md R41 (6): the bus is idle between steps. Every row but the pieces of a
transaction keeps it so, and so does every step of the block by itself. -/
def Obligations.BusIsIdleBetweenSteps : Prop :=
  (∀ (i : Instr) (s t : State), i.isWirePiece = false → s.busIdle → exec i s = .next t → t.busIdle)
    ∧ (∀ s t : State, s.port = [] → s.busIdle → step s = .next t → t.busIdle)

/-- The byte rows cmdDataAutoinc, cmdAddr, cmdCtrl, segmentByte, glyph0 to glyph9, glyphMinus, glyphBlank, dotFlag: each
sends its byte, as the encoding tables give it (30_encoding.md R93 to R99; 41_display_driver.md R161), in one byte slot
(R90), with the acknowledgment level drawn; nothing else of
the block changes. That running the row sends its byte is the model's choice, log entry 11; the byte values are the
spec's general knowledge, log entry 15. -/
def Obligations.ByteRowsSendTheirByte : Prop :=
  ∀ (i : Instr) (b : Byte) (s : State), i.rowByte = some b →
    ∃ t, exec i s = .next t ∧ t = { s with link := t.link }
      ∧ t.link.wire = s.link.wire ++ byteEvents b s.link.ackLevel
      ∧ t.link.lines = ⟨.high, .low, .output⟩ ∧ t.link.peer = s.link.peer
      ∧ t.link.rx = s.link.rx.push b s.link.ackLevel

/-- OVERFLOW_FRAME (that running it sends its bytes is the model's choice, log entry 11) sends the four bytes of
SEG_OVERFLOW in order, position 0 first; nothing else of the block changes. -/
def Obligations.OverflowFrameSendsItsFourBytes : Prop :=
  ∀ (s : State) (a0 a1 a2 a3 : Level) (rest : List Level), s.link.dioIn = a0 :: a1 :: a2 :: a3 :: rest →
    (∃ t, exec .overflowFrame s = .next t ∧ t = { s with link := t.link }
      ∧ t.link.wire = s.link.wire ++ (byteEvents s.cfg.segOverflow.p0 a0 ++ byteEvents s.cfg.segOverflow.p1 a1
        ++ byteEvents s.cfg.segOverflow.p2 a2 ++ byteEvents s.cfg.segOverflow.p3 a3)
      ∧ t.link.dioIn = rest ∧ t.link.peer = s.link.peer)

/-- The pure rows encodeDigit, eventNone, eventClick, eventLongPress, runIdle, runActiveLeft, runActiveRight deliver the
value of the spec's tables and write nothing else: ENCODEDIGIT the table byte for 0..9 and minus otherwise
(41_display_driver.md R160), the code rows their codes (30_encoding.md R100, R101). The register that takes the value
is the model's choice, log entry 12. -/
def Obligations.PureRowsDeliverTheirValue : Prop :=
  ∀ (i : Instr) (v : Byte) (s : State), i.rowValue = some v →
    exec i s = .next { s with result := v }

/-! ### The driver -/

/-- 41_display_driver.md R162: setBrightness stores the level and emits no event; above 7 it is refused. -/
def Obligations.SetBrightnessStoresTheLevel : Prop :=
  ∀ (s : State) (level : Byte),
    (level.toNat ≤ 7 →
      exec (.setBrightness level) s = .next { s with brightness := BitVec.ofNat 3 level.toNat })
    ∧ (7 < level.toNat → exec (.setBrightness level) s = .refused .levelOutOfRange)

/-- 41_display_driver.md R163, R164, R165, R171 and 40_wire_protocol.md R137: each display operation sends the data
command and leaves the address transaction of its position and bytes and the control transaction to follow; nothing
else changes. -/
def Obligations.DisplayOperationsStartTheirFrame : Prop :=
  ∀ s : State, s.pending = [] →
    let started : Byte → List Byte → State := fun p d =>
      { s with link := s.link.transact [0x40], pending := [.addr p d, .ctrl] }
    (∀ (p : Byte) (d : List Byte), 1 ≤ d.length → p.toNat + d.length ≤ 4 →
        exec (.sendSegments p d) s = .next (started p d))
      ∧ (∀ f0 f1 f2 f3 : Byte,
        exec (.displayRaw ⟨f0, f1, f2, f3⟩) s = .next (started 0 [f0, f1, f2, f3]))
      ∧ (∀ p b : Byte, p.toNat ≤ 3 → exec (.displayAt p b) s = .next (started p [b]))
      ∧ exec .clear s = .next (started 0 [0, 0, 0, 0])
      ∧ (∀ (v : BitVec 16) (z : Bool),
        let f : Frame := format s.cfg v z
        exec (.displayNumber v z) s = .next (started 0 [f.p0, f.p1, f.p2, f.p3]))

/-- 40_wire_protocol.md R137, R138: from SendSegments to its end, three steps of the machine, one per transaction; with
p and d they send `40 | C0+p d | 88+brightness`, and nothing but the script and the link changes. The model's own: the
script's statement `main`, one main-context step (DESIGN CHOICE, log entry 8), the queue (DEDUCED, log
entry 9), the frame code's layout (DESIGN CHOICE, log entry 17). -/
def Obligations.FrameIsThreeTransactions : Prop :=
  ∀ (s : State) (p : Byte) (d : List Byte) (rest : List Stim),
    s.cfg.ok = true → s.pending = [] → 1 ≤ d.length → p.toNat + d.length ≤ 4 →
    s.port = .op ⟨.frame, p :: d⟩ :: .main :: .main :: rest →
    ∃ t1 t2 t3, step s = .next t1 ∧ step t1 = .next t2 ∧ step t2 = .next t3
      ∧ t3 = { s with
        port := rest
        link := ((s.link.transact [0x40]).transact ((0xC0 + p) :: d)).transact
          [0x88 + s.brightness.setWidth 8] }

/-- 20_memory.md R69, 30_encoding.md R105, 41_display_driver.md R173, 40_wire_protocol.md R136: what is out of range has
no step. -/
def Obligations.OutOfRangeOperationsAreRefused : Prop :=
  ∀ s : State,
    (∀ (p : Byte) (d : List Byte), (d = [] ∨ 4 < p.toNat + d.length) →
        exec (.sendSegments p d) s = .refused .positionOutOfRange)
      ∧ (∀ p b : Byte, 3 < p.toNat → exec (.displayAt p b) s = .refused .positionOutOfRange)
      ∧ exec (.txn []) s = .refused .emptyTransaction
      ∧ exec .reservedSelect5 s = .refused (.reservedSelect 5)
      ∧ exec .reservedSelect6 s = .refused (.reservedSelect 6)
      ∧ exec .reservedSelect7 s = .refused (.reservedSelect 7)

/-- 41_display_driver.md R167: a number 0..9999 shows its digits, most significant leftmost, a leading zero blank unless
the flag is set, the last digit always. The digit bytes are the spec's general knowledge (30_encoding.md R98; PRESUMED, log
entry 15). -/
def Obligations.NumberShowsItsDigits : Prop :=
  ∀ (cfg : Config) (v : BitVec 16) (z : Bool), 0 ≤ v.toInt → v.toInt ≤ 9999 →
    let n := v.toNat
    let digit : Nat → Byte := fun g =>
      ([0x3F, 0x06, 0x5B, 0x4F, 0x66, 0x6D, 0x7D, 0x07, 0x7F, 0x6F] : List Byte).getD g 0x40
    format cfg v z =
      ⟨if z = true ∨ 1000 ≤ n then digit (n / 1000) else 0x00,
       if z = true ∨ 100 ≤ n then digit (n / 100 % 10) else 0x00,
       if z = true ∨ 10 ≤ n then digit (n / 10 % 10) else 0x00,
       digit (n % 10)⟩

/-- 41_display_driver.md R168, R169: a number -999..-1 shows the minus glyph leftmost and its magnitude in the three
other positions. With the flag set it is R169's inference; the minus and digit bytes are the spec's general knowledge
(30_encoding.md R98, R99; PRESUMED, log entry 15). -/
def Obligations.NegativeNumberShowsMinusAndMagnitude : Prop :=
  ∀ (cfg : Config) (v : BitVec 16) (z : Bool), -999 ≤ v.toInt → v.toInt ≤ -1 →
    let m := (-v.toInt).toNat
    let digit : Nat → Byte := fun g =>
      ([0x3F, 0x06, 0x5B, 0x4F, 0x66, 0x6D, 0x7D, 0x07, 0x7F, 0x6F] : List Byte).getD g 0x40
    format cfg v z =
      ⟨0x40,
       if z = true ∨ 100 ≤ m then digit (m / 100) else 0x00,
       if z = true ∨ 10 ≤ m then digit (m / 10 % 10) else 0x00,
       digit (m % 10)⟩

/-- 41_display_driver.md R170: outside -999..9999 the overflow pattern whatever the flag, and with the default pattern,
four minus glyphs, no number in range shows it. -/
def Obligations.OverflowIsDistinguishable : Prop :=
  (∀ (cfg : Config) (v : BitVec 16) (z : Bool), v.toInt < -999 ∨ 9999 < v.toInt →
      format cfg v z = cfg.segOverflow)
    ∧ Config.default.segOverflow = ⟨0x40, 0x40, 0x40, 0x40⟩
    ∧ (∀ (cfg : Config) (v : BitVec 16) (z : Bool), -999 ≤ v.toInt → v.toInt ≤ 9999 →
      format cfg v z ≠ ⟨0x40, 0x40, 0x40, 0x40⟩)

/-- 20_memory.md R63, R66: an acknowledged address transaction with the address p in 0..15 stores its data bytes at p,
p + 1, .., in either address mode, and leaves every other byte of the peer's display memory, the on bit, the brightness
and the mode. The peer is general knowledge (PRESUMED, log entry 16); that a byte for an address above 5 is stored nowhere
is the model's choice (DESIGN CHOICE, log entry 25). -/
def Obligations.AddressTransactionStoresItsBytes : Prop :=
  ∀ (s : State) (p : Byte) (d : List Byte) (as rest : List Level),
    p.toNat < 16 → Memory.wf s.link.peer.disp = true →
    s.link.dioIn = as ++ rest → as.length = d.length + 1 → (∀ a ∈ as, a = .low) →
    ∃ t, exec (.txn ((0xC0 + p) :: d)) s = .next t ∧ t = { s with link := t.link }
      ∧ (∀ (k : Nat) (b : Byte), d[k]? = some b → p.toNat + k < 6 →
        Memory.read t.link.peer.disp (p.toNat + k) = b)
      ∧ (∀ a : Nat, a < p.toNat ∨ p.toNat + d.length ≤ a ∨ 6 ≤ a →
        Memory.read t.link.peer.disp a = Memory.read s.link.peer.disp a)
      ∧ t.link.peer.on = s.link.peer.on ∧ t.link.peer.bright = s.link.peer.bright
      ∧ t.link.peer.autoInc = s.link.peer.autoInc

/-- 20_memory.md R66: an acknowledged transaction whose first byte is a data command (bits 7:6 = 01) sets the address mode,
auto-increment when bit 2 is 0, and one whose first byte is a display control (10) sets the on bit and the brightness, each
whatever bytes follow it; nothing else of the peer changes. The peer is general knowledge (PRESUMED, log entry 16). -/
def Obligations.CommandTransactionsSetThePeer : Prop :=
  ∀ (s : State) (c : Byte) (d : List Byte) (as rest : List Level),
    s.link.dioIn = as ++ rest → as.length = d.length + 1 → (∀ a ∈ as, a = .low) →
    (64 ≤ c.toNat → c.toNat < 128 →
      ∃ t, exec (.txn (c :: d)) s = .next t ∧ t = { s with link := t.link }
        ∧ t.link.peer = { s.link.peer with autoInc := decide (c.toNat / 4 % 2 = 0) })
    ∧ (128 ≤ c.toNat → c.toNat < 192 →
      ∃ t, exec (.txn (c :: d)) s = .next t ∧ t = { s with link := t.link }
        ∧ t.link.peer = { s.link.peer with
            on := decide (c.toNat / 8 % 2 = 1)
            bright := BitVec.ofNat 3 (c.toNat % 8) })

/-! ### The tick context -/

/-- 42_tick_and_buttons.md R190: TICK is the clock increment, the ButtonStep row of button 0 and of button 1 under the
selected policy, each with its latch write, then Gesture, then the wake. -/
def Obligations.TickIsItsPartsInOrder : Prop :=
  ∀ (s : State) (b0 b1 : Level), ∃ u,
    runAll [buttonRow s.cfg.policy .zero b0, buttonRow s.cfg.policy .one b1, .gesture]
        { s with now := (s.now + 1) % 2 ^ s.cfg.tickBits } = .next u
      ∧ exec (.tick b0 b1) s =
        .next { u with mphase := if u.mphase = .wait then .poll else u.mphase }

/-- 42_tick_and_buttons.md R191, R193 and 60_exceptions.md R278: TICK always completes, adds 1 to `now` modulo
2^TICK_BITS, wakes the main context from WAIT and from no other phase, and writes no register but `now`, `dur`, `void`,
`evt`, `resetReq` and, by the wake (the spec's decision D27), `mphase`. -/
def Obligations.TickWritesOnlyItsRegisters : Prop :=
  ∀ (s : State) (b0 b1 : Level), ∃ t, exec (.tick b0 b1) s = .next t
    ∧ t = { s with
      now := (s.now + 1) % 2 ^ s.cfg.tickBits
      dur := t.dur
      voided := t.voided
      evt := t.evt
      resetReq := t.resetReq
      mphase := match s.mphase with
        | .wait => .poll
        | .poll => .poll
        | .update => .update
        | .render => .render
        | .tx1 => .tx1
        | .tx2 => .tx2
        | .tx3 => .tx3 }

/-- 42_tick_and_buttons.md R196: the counter of a pressed button counts up to DUR_MAX = 65535 and stays; no event, and
nothing else changes. -/
def Obligations.EdgePressCountsUp : Prop :=
  ∀ (s : State) (b : Idx), s.cfg.policy = .edge →
    exec (.buttonEdgePressed b) s = .next { s with
      dur := s.dur.set b (BitVec.ofNat 16 (min ((s.dur.get b).toNat + 1) 65535)) }

/-- 42_tick_and_buttons.md R197, R203: the release clears the counter and the void flag and latches the event of the
press's duration; a None leaves the latch. The latch write is R203, the spec's decision D8; that the row run by itself does
it is the model's (DEDUCED, log entry 10). -/
def Obligations.EdgeReleaseDecidesTheEvent : Prop :=
  ∀ (s : State) (b : Idx), s.cfg.policy = .edge →
    exec (.buttonEdgeReleased b) s = .next { s with
      dur := s.dur.set b 0
      voided := s.voided.set b false
      evt :=
        let d := (s.dur.get b).toNat
        if d = 0 ∨ s.voided.get b = true then s.evt
        else if s.cfg.longPress ≤ d then s.evt.set b .longPress
        else if s.cfg.debounce ≤ d then s.evt.set b .click
        else s.evt }

/-- 42_tick_and_buttons.md R200, R203: under the Hold policy a pressed button's counter goes up by one; at DEBOUNCE and at
HOLD_THRESHOLD + REPEAT_INTERVAL a Click is latched unless the press is voided, and the latter folds the
counter back. That the row run by itself writes the latch is the model's (DEDUCED, log entry 10). -/
def Obligations.HoldPressClicksAndFoldsBack : Prop :=
  ∀ (s : State) (b : Idx), s.cfg.ok = true → s.cfg.policy = .hold →
    (s.dur.get b).toNat < s.cfg.holdThreshold + s.cfg.repeatInterval →
    let d := (s.dur.get b).toNat + 1
    let click : Duo ButtonEvent := if s.voided.get b = true then s.evt else s.evt.set b .click
    exec (.buttonHoldPressed b) s = .next (
      if d = s.cfg.debounce then { s with dur := s.dur.set b (BitVec.ofNat 16 d), evt := click }
      else if d = s.cfg.holdThreshold + s.cfg.repeatInterval then
        { s with dur := s.dur.set b (BitVec.ofNat 16 s.cfg.holdThreshold), evt := click }
      else { s with dur := s.dur.set b (BitVec.ofNat 16 d) })

/-- 42_tick_and_buttons.md R201: under the Hold policy a release clears the counter and the void flag and is no event. -/
def Obligations.HoldReleaseClearsThePress : Prop :=
  ∀ (s : State) (b : Idx), s.cfg.policy = .hold →
    exec (.buttonHoldReleased b) s =
      .next { s with dur := s.dur.set b 0, voided := s.voided.set b false }

/-- 00_scope.md R3, R9 (log entry 13): a ButtonStep row of the policy that is not selected has no step. -/
def Obligations.UnselectedPolicyHasNoStep : Prop :=
  ∀ (s : State) (b : Idx),
    (s.cfg.policy = .hold → exec (.buttonEdgePressed b) s = .refused .policyNotSelected
      ∧ exec (.buttonEdgeReleased b) s = .refused .policyNotSelected)
    ∧ (s.cfg.policy = .edge → exec (.buttonHoldPressed b) s = .refused .policyNotSelected
      ∧ exec (.buttonHoldReleased b) s = .refused .policyNotSelected)

/-- 42_tick_and_buttons.md R202: Gesture fires when both counters are at least DEBOUNCE and not both presses are voided;
it sets resetReq, clears both latches and voids both presses, and otherwise changes nothing. -/
def Obligations.GestureVoidsBothPresses : Prop :=
  ∀ s : State, exec .gesture s = .next (
    if s.cfg.debounce ≤ (s.dur.get .zero).toNat ∧ s.cfg.debounce ≤ (s.dur.get .one).toNat
        ∧ ¬ (s.voided.get .zero = true ∧ s.voided.get .one = true) then
      { s with resetReq := true, evt := ⟨.none, .none⟩, voided := ⟨true, true⟩ }
    else s)

/-- 42_tick_and_buttons.md R202: the gesture fires once per simultaneous hold: while both presses are voided and both
buttons stay pressed, no TICK sets resetReq. -/
def Obligations.GestureFiresOncePerHold : Prop :=
  ∀ (s : State) (n : Nat), s.voided = ⟨true, true⟩ → s.resetReq = false →
    ∃ t, runAll (ticks n .low .low) s = .next t ∧ t.resetReq = false ∧ t.voided = ⟨true, true⟩

/-- 42_tick_and_buttons.md R204: a voided press produces nothing: a TICK leaves its latch or, if the gesture fires,
clears it; the first released sample clears the void flag. -/
def Obligations.VoidedPressIsSilent : Prop :=
  ∀ (s t : State) (b : Idx) (b0 b1 : Level), s.voided.get b = true →
    exec (.tick b0 b1) s = .next t →
    (t.evt.get b = s.evt.get b ∨ t.evt.get b = .none)
      ∧ ((Duo.mk b0 b1).get b = .high → 1 ≤ s.cfg.debounce → t.voided.get b = false)

/-- 42_tick_and_buttons.md R198, R205, R206, Edge policy: an isolated press of n consecutive samples, the other button
released, gives no event while held, whatever n, and at its release nothing below DEBOUNCE, a Click below LONG_PRESS, a
LongPress from there on; the counter is n, saturated. -/
def Obligations.EdgePressSummary : Prop :=
  ∀ (s : State) (b : Idx) (n : Nat), s.cfg.ok = true → s.cfg.policy = .edge →
    s.dur.get b = 0 → s.voided.get b = false → s.evt.get b = .none → 1 ≤ n →
    let down := (Duo.mk Level.high Level.high).set b .low
    ∃ u t, runAll (ticks n down.at0 down.at1) s = .next u
      ∧ u.evt.get b = .none ∧ (u.dur.get b).toNat = min n 65535
      ∧ exec (.tick .high .high) u = .next t ∧ t.dur.get b = 0
      ∧ t.evt.get b =
        if n < s.cfg.debounce then .none
        else if n < s.cfg.longPress then .click
        else .longPress

/-- 42_tick_and_buttons.md R200, R206, Hold policy: of an isolated press, the sample n + 1 produces a Click exactly when
n + 1 is DEBOUNCE or HOLD_THRESHOLD + k*REPEAT_INTERVAL with k >= 1. -/
def Obligations.HoldClickSchedule : Prop :=
  ∀ (s : State) (b : Idx) (n : Nat), s.cfg.ok = true → s.cfg.policy = .hold →
    s.dur.get b = 0 → s.voided.get b = false →
    let down := (Duo.mk Level.high Level.high).set b .low
    ∃ u t, runAll (ticks n down.at0 down.at1) s = .next u
      ∧ exec (.tick down.at0 down.at1) { u with evt := ⟨.none, .none⟩ } = .next t
      ∧ (t.evt.get b = .click ↔ holdClickAt s.cfg (n + 1))
      ∧ t.evt.get b ≠ .longPress
      ∧ (t.dur.get b).toNat < s.cfg.holdThreshold + s.cfg.repeatInterval

/-! ### The main loop -/

/-- 43_scoreboard.md R231: POLL takes the snapshot, clears the latches and goes to UPDATE; nothing else changes. -/
def Obligations.PollSnapshotsAndClears : Prop :=
  ∀ s : State, s.mphase = .poll → exec .poll s = .next { s with
    snapReset := s.resetReq
    snapEvt := s.evt
    snapNow := s.now
    resetReq := false
    evt := ⟨.none, .none⟩
    mphase := .update }

/-- 43_scoreboard.md R232: UPDATE is the reset if the snapshot holds one, then the row that handles the event of button 0
in the run state it finds, then that of button 1, then the timeout, and goes to RENDER. The LongPress rows are of the Edge
policy only (R237, R238): under the Hold policy no snapshot holds a LongPress in a state that a run reaches, a clause of
the invariant (EveryStepKeepsTheInvariant), and it is the premise here. UPDATE itself tests no policy: it does the same
under the Edge policy, in every state. -/
def Obligations.UpdateIsItsSubStepsInOrder : Prop :=
  (∀ s : State, s.mphase = .update → (s.cfg.policy = .hold → ∀ b, s.snapEvt.get b ≠ .longPress) →
    ∃ s1 s2 s3 s4,
      runOption (if s.snapReset = true then some .applyReset else none) s = .next s1
        ∧ runOption (eventRow s1.run .zero (s.snapEvt.get .zero)) s1 = .next s2
        ∧ runOption (eventRow s2.run .one (s.snapEvt.get .one)) s2 = .next s3
        ∧ exec .timeout s3 = .next s4
        ∧ exec .update s = .next { s4 with mphase := .render })
  ∧ (∀ s : State, s.mphase = .update →
    let underEdge : State → State := fun u => { u with cfg := { u.cfg with policy := .edge } }
    ∃ t, exec .update s = .next t ∧ exec .update (underEdge s) = .next (underEdge t))

/-- 43_scoreboard.md R233: the reset writes SCORE_MAX to both scores and Idle to `run`, whatever they were, and nothing
else. -/
def Obligations.ResetRowRestoresScores : Prop :=
  ∀ s : State, exec .applyReset s =
    .next { s with score := ⟨s.cfg.scoreMax, s.cfg.scoreMax⟩, run := .idle }

/-- 43_scoreboard.md R234: in Idle an event of button j activates side j and records the snapshot's time; no score
changes. In an active state there is no such transition (log entry 13). -/
def Obligations.ActivationKeepsScores : Prop :=
  ∀ (s : State) (j : Idx),
    (s.run = .idle → exec (.activate j) s = .next { s with
      run := match j with
        | .zero => .activeLeft
        | .one => .activeRight
      stateTime := s.snapNow })
    ∧ (s.run ≠ .idle → exec (.activate j) s = .refused .notEnabled)

/-- 43_scoreboard.md R235 to R239: while side sd is active, the four rows edit its score: down by one with floor 0, up by
one with ceiling 99, to 0, to SNAP_HIGH, the last two under the Edge policy; each records the snapshot's time, a clamped
Click too; nothing else changes. The snap target is the spec's decision D10 (R238), the time D13 (R239), which the row run
by itself writes too (DEDUCED, log entry 10). In Idle they have no step, and under the Hold policy the LongPress rows have
none (DEDUCED, log entry 13). -/
def Obligations.EditRowsEditTheActiveSide : Prop :=
  ∀ s : State,
    (∀ sd : Idx, s.run = (match sd with | .zero => .activeLeft | .one => .activeRight) →
      (∃ t, exec .click0Dec s = .next t
        ∧ t = { s with score := s.score.set sd (t.score.get sd), stateTime := s.snapNow }
        ∧ ((t.score.get sd).val : Int) = max (((s.score.get sd).val : Int) - 1) 0)
      ∧ (∃ t, exec .click1Inc s = .next t
        ∧ t = { s with score := s.score.set sd (t.score.get sd), stateTime := s.snapNow }
        ∧ (t.score.get sd).val = min ((s.score.get sd).val + 1) 99)
      ∧ (s.cfg.policy = .edge →
        exec .longPress0Floor s = .next { s with score := s.score.set sd 0, stateTime := s.snapNow }
          ∧ exec .longPress1Snap s =
            .next { s with score := s.score.set sd s.cfg.snapHigh, stateTime := s.snapNow }))
    ∧ (s.run = .idle →
      exec .click0Dec s = .refused .notEnabled ∧ exec .click1Inc s = .refused .notEnabled
        ∧ (s.cfg.policy = .edge →
          exec .longPress0Floor s = .refused .notEnabled ∧ exec .longPress1Snap s = .refused .notEnabled))
    ∧ (s.cfg.policy = .hold →
      exec .longPress0Floor s = .refused .policyNotSelected
        ∧ exec .longPress1Snap s = .refused .policyNotSelected)

/-- 43_scoreboard.md R240, 00_scope.md R12: the timeout returns an active side to Idle exactly when the elapsed time,
the difference of the tick values modulo 2^TICK_BITS, is at least STATE_DURATION; scores are kept. -/
def Obligations.TimeoutReturnsToIdle : Prop :=
  ∀ s : State, exec .timeout s = .next (
    if s.run ≠ .idle
        ∧ (s.cfg.stateDuration : Int) ≤ ((s.snapNow : Int) - (s.stateTime : Int)) % (2 ^ s.cfg.tickBits : Int)
    then { s with run := .idle }
    else s)

/-- 43_scoreboard.md R248 (2), (3), R249: in an UPDATE without a reset an active side stays active or times out; it never
becomes the other side, and it times out only when STATE_DURATION has passed since the `stateTime` that UPDATE leaves. -/
def Obligations.ActiveSideChangesOnlyThroughIdle : Prop :=
  ∀ s t : State, s.run ≠ .idle → s.snapReset = false → exec .update s = .next t →
    t.run = s.run ∨
      (t.run = .idle
        ∧ (s.cfg.stateDuration : Int) ≤ ((t.snapNow : Int) - (t.stateTime : Int)) % (2 ^ s.cfg.tickBits : Int))

/-- 43_scoreboard.md R241 to R245: RENDER writes the frame of {Score, RunState, tick phase} and the brightness of the run
state and goes to TX1; nothing else changes. Glyph and dot bytes are the spec's general knowledge (PRESUMED, log entry 15);
the zero score's glyphs, the blink, the dot and the brightness are the spec's decisions that R242 to R245 name. -/
def Obligations.RenderWritesTheFrame : Prop :=
  ∀ s : State, s.mphase = .render →
    let digit : Nat → Byte := fun g =>
      ([0x3F, 0x06, 0x5B, 0x4F, 0x66, 0x6D, 0x7D, 0x07, 0x7F, 0x6F] : List Byte).getD g 0x40
    let blanked : RunState → Bool := fun active =>
      decide (s.run = active) && decide (s.cfg.blinkOn ≤ s.snapNow % s.cfg.blinkPeriod)
    let glyph : RunState → Nat → Nat → Byte := fun active x g =>
      if blanked active then 0x00 else if x = 0 then 0x40 else digit g
    let dot : Bool → Byte → Byte := fun on b => if on then b ||| 0x80 else b
    let l := s.score.at0.val
    let r := s.score.at1.val
    exec .render s = .next { s with
      frame :=
        ⟨dot s.cfg.sepDot.p0 (glyph .activeLeft l (l / 10)), dot s.cfg.sepDot.p1 (glyph .activeLeft l (l % 10)),
         dot s.cfg.sepDot.p2 (glyph .activeRight r (r / 10)), dot s.cfg.sepDot.p3 (glyph .activeRight r (r % 10))⟩
      brightness := if s.run = .idle then s.cfg.brightDim else s.cfg.brightNormal
      mphase := .tx1 }

/-- 43_scoreboard.md R246: the three transmit steps send `[0x40]`, `[0xC0, frame]`, `[0x88 + brightness]`, each as one
transaction, and go to the next phase; nothing else of the block changes. -/
def Obligations.TransmitStepsSendTheFrame : Prop :=
  ∀ s : State,
    (s.mphase = .tx1 → exec .tx1 s = .next { s with link := s.link.transact [0x40], mphase := .tx2 })
    ∧ (s.mphase = .tx2 → exec .tx2 s = .next { s with
        link := s.link.transact [0xC0, s.frame.p0, s.frame.p1, s.frame.p2, s.frame.p3]
        mphase := .tx3 })
    ∧ (s.mphase = .tx3 → exec .tx3 s = .next { s with
        link := s.link.transact [0x88 + s.brightness.setWidth 8]
        mphase := .wait })

/-- 43_scoreboard.md R230, R247: the step of mphase completes and goes to the next phase of the cycle; WAIT stays (log
entry 21). A main-loop row of another phase has no step (log entry 13). -/
def Obligations.MainLoopFollowsItsCycle : Prop :=
  (∀ s : State, ∃ t, exec (phaseInstr s.mphase) s = .next t ∧ t.mphase = s.mphase.next)
    ∧ (∀ s : State, s.mphase = .wait → exec .wait s = .next s)
    ∧ (∀ (s : State) (p : Phase), p ≠ s.mphase → exec (phaseInstr p) s = .refused .notEnabled)

/-- 10_state.md R31, 43_scoreboard.md R245: while the block runs by itself, outside the UPDATE to RENDER interval the
brightness register is the function of `run`; every step keeps it so. -/
def Obligations.BrightnessFollowsRunState : Prop :=
  ∀ s t : State, s.port = [] → s.pending = [] →
    (s.mphase ≠ .render →
      s.brightness = match s.run with
        | .idle => s.cfg.brightDim
        | .activeLeft => s.cfg.brightNormal
        | .activeRight => s.cfg.brightNormal) →
    step s = .next t →
    t.port = [] ∧ t.pending = [] ∧
    (t.mphase ≠ .render →
      t.brightness = match t.run with
        | .idle => t.cfg.brightDim
        | .activeLeft => t.cfg.brightNormal
        | .activeRight => t.cfg.brightNormal)

/-- 70_reset_and_hazards.md R302: the first iteration, from every reset state with the default parameters, whatever the
unspecified registers hold, sends `40 | C0 5B BF 5B 3F | 88` and then waits. -/
def Obligations.FirstIterationShowsTwenty : Prop :=
  ∀ (now stateTime snapNow : Nat) (snapReset : Bool) (snapEvt : Duo ButtonEvent) (frame : Frame) (peer : Peer),
    ∃ t, runAll [.poll, .update, .render, .tx1, .tx2, .tx3]
        (State.resetWith Config.default now stateTime snapNow snapReset snapEvt frame peer) = .next t
      ∧ readBytes t.link.wire = [0x40, 0xC0, 0x5B, 0xBF, 0x5B, 0x3F, 0x88]
      ∧ t.link.wire.length = 228 ∧ t.mphase = .wait ∧ t.run = .idle ∧ t.score = ⟨20, 20⟩

/-- 40_wire_protocol.md R137, 20_memory.md R66, 43_scoreboard.md R246: after TX1, TX2, TX3 with every byte acknowledged
the display shows the frame: positions 0..3 hold its bytes, the display is on at the brightness of the register, and
every other byte of the display memory is as it was; each of the four positions lights the segments and the point whose
bits its frame byte has (log entry 16: the peer is general knowledge). -/
def Obligations.DisplayShowsTheFrame : Prop :=
  ∀ (s : State) (as rest : List Level), s.mphase = .tx1 → Memory.wf s.link.peer.disp = true →
    s.link.dioIn = as ++ rest → as.length = 7 → (∀ a ∈ as, a = .low) →
    ∃ t, runAll [.tx1, .tx2, .tx3] s = .next t
      ∧ Memory.read t.link.peer.disp 0 = s.frame.p0 ∧ Memory.read t.link.peer.disp 1 = s.frame.p1
      ∧ Memory.read t.link.peer.disp 2 = s.frame.p2 ∧ Memory.read t.link.peer.disp 3 = s.frame.p3
      ∧ (∀ a : Nat, 4 ≤ a → Memory.read t.link.peer.disp a = Memory.read s.link.peer.disp a)
      ∧ t.link.peer.on = true ∧ t.link.peer.bright = s.brightness
      ∧ (∀ x : Segment,
        t.link.peer.lights 0 x = s.frame.p0.getLsbD x.bit ∧ t.link.peer.lights 1 x = s.frame.p1.getLsbD x.bit
          ∧ t.link.peer.lights 2 x = s.frame.p2.getLsbD x.bit ∧ t.link.peer.lights 3 x = s.frame.p3.getLsbD x.bit)
      ∧ t = { s with link := t.link, mphase := .wait }

/-- 20_memory.md R70: sending the same frame twice leaves the peer's display as sending it once: with every byte
acknowledged, a second frame with the same bytes changes no byte of the memory, nor the on bit, nor the brightness. The
peer is general knowledge (PRESUMED, log entry 16). -/
def Obligations.SameFrameTwiceIsOnce : Prop :=
  ∀ (s t u : State) (as rest : List Level), s.mphase = .tx1 → Memory.wf s.link.peer.disp = true →
    s.link.dioIn = as ++ rest → as.length = 14 → (∀ a ∈ as, a = .low) →
    runAll [.tx1, .tx2, .tx3] s = .next t →
    runAll [.tx1, .tx2, .tx3] { t with mphase := .tx1 } = .next u →
    (∀ a : Nat, Memory.read u.link.peer.disp a = Memory.read t.link.peer.disp a)
      ∧ u.link.peer.on = t.link.peer.on ∧ u.link.peer.bright = t.link.peer.bright

/-! ### The whole machine -/

/-- 10_state.md R20, 20_memory.md R74, 60_exceptions.md R280: each register has its one writing context (the lines and the
trace: OnlyTransactionsReachTheWire). Over all rows:
the configuration has no writer; score, run and stateTime are written by UPDATE's rows only; now, dur and void by the
tick context's rows only; evt and resetReq by those and POLL only; the snapshot by POLL only; the frame by RENDER only;
brightness by RENDER and setBrightness only; mphase by the main-loop rows, and by TICK for the wake from WAIT to POLL
only. -/
def Obligations.EveryRegisterHasItsOwner : Prop :=
  ∀ (i : Instr) (s t : State), exec i s = .next t →
    t.cfg = s.cfg ∧ t.port = s.port ∧ t.draws = s.draws
      ∧ (i.isUpdate = false → t.score = s.score ∧ t.run = s.run ∧ t.stateTime = s.stateTime)
      ∧ (i.tickContext = false → t.now = s.now ∧ t.dur = s.dur ∧ t.voided = s.voided)
      ∧ (i.tickContext = false → i ≠ .poll → t.evt = s.evt ∧ t.resetReq = s.resetReq)
      ∧ (i ≠ .poll → t.snapReset = s.snapReset ∧ t.snapEvt = s.snapEvt ∧ t.snapNow = s.snapNow)
      ∧ (i ≠ .render → t.frame = s.frame)
      ∧ (i ≠ .render → (∀ level, i ≠ .setBrightness level) → t.brightness = s.brightness)
      ∧ ((∀ p, i ≠ phaseInstr p) →
        t.mphase = s.mphase
          ∨ ((∃ b0 b1, i = .tick b0 b1) ∧ s.mphase = .wait ∧ t.mphase = .poll))
      ∧ (i.rowValue = none → t.result = s.result)

/-- 60_exceptions.md R280, 40_wire_protocol.md R139 (1): only the wire rows and the rows that send transactions touch the
lines, the trace or the peer; the tick context emits nothing. Of those, only the end of a transaction changes any byte
of the peer's display memory (20_memory.md R62, R66). -/
def Obligations.OnlyTransactionsReachTheWire : Prop :=
  ∀ (i : Instr) (s t : State), exec i s = .next t →
    (i.isWirePiece = false → i.isTransaction = false → t.link = s.link)
      ∧ (i.tickContext = true → t.link = s.link)
      ∧ (i ≠ .stop → i.isTransaction = false → t.link.peer = s.link.peer)
end

