-- ==== Sys2Proof/Laws/Data.lean ====
section
/-! SUPPORT. The small laws of register arrays, levels, codes and tick arithmetic. -/

namespace Sys2Proof

@[simp] theorem Duo.get_zero {α : Type} (r : Duo α) : r.get .zero = r.at0 := rfl
@[simp] theorem Duo.get_one {α : Type} (r : Duo α) : r.get .one = r.at1 := rfl
@[simp] theorem Duo.set_zero {α : Type} (r : Duo α) (v : α) : r.set .zero v = ⟨v, r.at1⟩ := rfl
@[simp] theorem Duo.set_one {α : Type} (r : Duo α) (v : α) : r.set .one v = ⟨r.at0, v⟩ := rfl

@[simp] theorem Duo.get_set_same {α : Type} (r : Duo α) (b : Idx) (v : α) : (r.set b v).get b = v := by
  cases b <;> rfl

theorem Duo.get_set_other {α : Type} (r : Duo α) {b c : Idx} (v : α) (h : c ≠ b) :
    (r.set b v).get c = r.get c := by
  cases b <;> cases c <;> first | rfl | exact absurd rfl h

namespace Machine

@[simp] theorem pressed_low : pressed .low = true := rfl
@[simp] theorem pressed_high : pressed .high = false := rfl

theorem tickInc_lt (w n : Nat) : tickInc w n < 2 ^ w := Nat.mod_lt _ (Nat.two_pow_pos w)

theorem tickSub_lt (w a b : Nat) : tickSub w a b < 2 ^ w := Nat.mod_lt _ (Nat.two_pow_pos w)

/-- `-w` is the subtraction of the integers modulo 2^w (00_scope.md R12). -/
theorem tickSub_eq_emod (w a b : Nat) :
    (tickSub w a b : Int) = ((a : Int) - b) % (2 ^ w : Int) := by
  have hp : 0 < 2 ^ w := Nat.two_pow_pos w
  have hb : b % 2 ^ w < 2 ^ w := Nat.mod_lt _ hp
  have hd : (2 ^ w : Nat) * (b / 2 ^ w) + b % 2 ^ w = b := Nat.div_add_mod b (2 ^ w)
  have h1 : ((tickSub w a b : Nat) : Int) = ((a + (2 ^ w - b % 2 ^ w) : Nat) : Int) % (2 ^ w : Int) := by
    unfold tickSub; push_cast; rfl
  rw [h1]
  have h2 : ((a + (2 ^ w - b % 2 ^ w) : Nat) : Int)
      = (a : Int) - b + (2 ^ w : Int) * (1 + (b / 2 ^ w : Nat)) := by
    have : ((2 ^ w : Nat) : Int) = (2 ^ w : Int) := by push_cast; rfl
    have hd' : (2 ^ w : Int) * ((b / 2 ^ w : Nat) : Int) + ((b % 2 ^ w : Nat) : Int) = (b : Int) := by
      rw [← this]; exact_mod_cast hd
    rw [Nat.cast_add, Nat.cast_sub hb.le, this]
    linear_combination (-1 : Int) * hd'
  rw [h2, Int.add_mul_emod_self_left]

theorem scoreInc_val (x : Fin 100) : (scoreInc x).val = min (x.val + 1) 99 := by
  have := x.isLt
  unfold scoreInc
  split
  · simp only; omega
  · simp only [scoreCeil]; show (99 : Nat) = _; omega

theorem scoreDec_val (x : Fin 100) : (scoreDec x).val = x.val - 1 := by
  unfold scoreDec
  split
  · simp only [scoreFloor]; show (0 : Nat) = _; omega
  · rfl

@[simp] theorem side_active (j : Idx) : (RunState.active j).side = some j := by cases j <;> rfl

theorem side_eq_none_iff (r : RunState) : r.side = none ↔ r = .idle := by cases r <;> simp [RunState.side]

theorem encodeDigitByte_of_gt (d : Byte) (h : 9 < d.toNat) : encodeDigitByte d = segMinus :=
  dif_neg (by omega)

theorem ctrlByte_eq_append (l : BitVec 3) : ctrlByte l = 0b10001#5 ++ l := by
  revert l; decide

theorem addrByte_eq_append (p : BitVec 2) : addrByte (p.setWidth 8) = 0b110000#6 ++ p := by
  revert p; decide

theorem withDot_eq_append (x : BitVec 7) : withDot (x.setWidth 8) = 0b1#1 ++ x := by
  revert x; decide

end Machine

end Sys2Proof
end

