-- ==== Sys2Proof/Laws/Memory.lean ====
section
/-! SUPPORT. The laws of the peer's display memory: read after write, and every operation keeps the canonical form. -/

namespace Sys2Proof.Machine

theorem Memory.rising_cons {k : Nat} {v : Byte} {m : Memory} :
    Memory.rising ((k, v) :: m) = true ↔ (∀ c ∈ m.head?, k < c.1) ∧ Memory.rising m = true := by
  cases m with
  | nil => simp [Memory.rising]
  | cons c r => obtain ⟨k', v'⟩ := c; simp [Memory.rising]

/-- In a rising memory every later address is larger. -/
theorem Memory.rising_lt {m : Memory} {k : Nat} {v : Byte} (h : Memory.rising ((k, v) :: m) = true) :
    ∀ c ∈ m, k < c.1 := by
  induction m generalizing k v with
  | nil => simp
  | cons c r ih =>
    obtain ⟨k', v'⟩ := c
    simp only [Memory.rising, Bool.and_eq_true, decide_eq_true_eq] at h
    intro c hc
    rcases List.mem_cons.mp hc with rfl | hc
    · exact h.1
    · exact lt_trans h.1 (ih h.2 c hc)

theorem Memory.read_of_lt {m : Memory} {a : Nat} (h : ∀ c ∈ m, a < c.1) :
    Memory.read m a = Memory.unlisted := by
  induction m with
  | nil => rfl
  | cons c r ih =>
    obtain ⟨k, v⟩ := c
    have hk : a < k := h (k, v) (by simp)
    have hr := ih (fun c hc => h c (by simp [hc]))
    simp [Memory.read, hk.ne', hr]

theorem Memory.rising_tail {k : Nat} {v : Byte} {m : Memory} (h : Memory.rising ((k, v) :: m) = true) :
    Memory.rising m = true := (Memory.rising_cons.mp h).2

/-- Reading the byte just written. -/
theorem Memory.read_write_same {m : Memory} (h : Memory.rising m = true) (a : Nat) (v : Byte) :
    Memory.read (Memory.write m a v) a = v := by
  induction m with
  | nil => by_cases hv : v = Memory.unlisted <;> simp [Memory.write, Memory.read, hv]
  | cons c r ih =>
    obtain ⟨k, u⟩ := c
    have ih := ih (Memory.rising_tail h)
    have hlt := Memory.rising_lt h
    unfold Memory.write
    split_ifs with h1 h2 h3 h4
    · rw [h2]
      refine Memory.read_of_lt (fun c hc => ?_)
      rcases List.mem_cons.mp hc with rfl | hc
      · exact h1
      · exact h1.trans (hlt c hc)
    · simp [Memory.read]
    · rw [h4, h3]; exact Memory.read_of_lt hlt
    · simp [Memory.read]
    · simp only [Memory.read, if_neg (fun e : k = a => h3 e.symm)]; exact ih

/-- A write leaves every other byte alone. -/
theorem Memory.read_write_other {m : Memory} (h : Memory.rising m = true) {a b : Nat} (v : Byte)
    (hb : b ≠ a) : Memory.read (Memory.write m a v) b = Memory.read m b := by
  induction m with
  | nil => by_cases hv : v = Memory.unlisted <;> simp [Memory.write, Memory.read, hv, hb.symm]
  | cons c r ih =>
    obtain ⟨k, u⟩ := c
    have ih := ih (Memory.rising_tail h)
    unfold Memory.write
    split_ifs with h1 h2 h3 h4
    · rfl
    · simp [Memory.read, hb.symm]
    · subst h3; simp [Memory.read, hb.symm]
    · subst h3; simp [Memory.read, hb.symm]
    · by_cases hk : k = b <;> simp [Memory.read, hk, ih]

theorem Memory.write_head_lt {m : Memory} {k a : Nat} {v : Byte} (hk : k < a)
    (h : ∀ c ∈ m, k < c.1) : ∀ c ∈ Memory.write m a v, k < c.1 := by
  induction m with
  | nil => by_cases hv : v = Memory.unlisted <;> simp [Memory.write, hv, hk]
  | cons c r ih =>
    obtain ⟨k', u⟩ := c
    have hk' : k < k' := h (k', u) (by simp)
    have hr : ∀ c ∈ r, k < c.1 := fun c hc => h c (by simp [hc])
    unfold Memory.write
    split_ifs <;> intro c hc
    · exact h c hc
    · rcases List.mem_cons.mp hc with rfl | hc
      · exact hk
      · exact h c hc
    · exact hr c hc
    · rcases List.mem_cons.mp hc with rfl | hc
      · exact hk
      · exact hr c hc
    · rcases List.mem_cons.mp hc with rfl | hc
      · exact hk'
      · exact ih hr c hc

theorem Memory.rising_of_lt {m : Memory} {k : Nat} {v : Byte} (h : ∀ c ∈ m, k < c.1)
    (hm : Memory.rising m = true) : Memory.rising ((k, v) :: m) = true :=
  Memory.rising_cons.mpr ⟨fun c hc => h c (List.mem_of_mem_head? hc), hm⟩

theorem Memory.write_rising {m : Memory} (h : Memory.rising m = true) (a : Nat) (v : Byte) :
    Memory.rising (Memory.write m a v) = true := by
  induction m with
  | nil => by_cases hv : v = Memory.unlisted <;> simp [Memory.write, Memory.rising, hv]
  | cons c r ih =>
    obtain ⟨k, u⟩ := c
    have hr := Memory.rising_tail h
    have hlt := Memory.rising_lt h
    unfold Memory.write
    split_ifs with h1 h2 h3 h4
    · exact h
    · refine Memory.rising_of_lt (fun c hc => ?_) h
      rcases List.mem_cons.mp hc with rfl | hc
      · exact h1
      · exact h1.trans (hlt c hc)
    · exact hr
    · subst h3; exact Memory.rising_of_lt hlt hr
    · exact Memory.rising_of_lt (Memory.write_head_lt (by omega) hlt) (ih hr)

/-- Every entry after a write is an old one or the one written, which is then listed. -/
theorem Memory.mem_write {m : Memory} {a : Nat} {v : Byte} {c : Host.Cell}
    (h : c ∈ Memory.write m a v) : c ∈ m ∨ (c = (a, v) ∧ v ≠ Memory.unlisted) := by
  induction m with
  | nil =>
    by_cases hv : v = Memory.unlisted
    · simp [Memory.write, hv] at h
    · simp [Memory.write, hv] at h; exact .inr ⟨h, hv⟩
  | cons d r ih =>
    obtain ⟨k, u⟩ := d
    unfold Memory.write at h
    split_ifs at h with h1 h2 h3 h4
    · exact .inl h
    · rcases List.mem_cons.mp h with rfl | h
      · exact .inr ⟨rfl, h2⟩
      · exact .inl h
    · exact .inl (List.mem_cons_of_mem _ h)
    · rcases List.mem_cons.mp h with rfl | h
      · exact .inr ⟨rfl, h4⟩
      · exact .inl (List.mem_cons_of_mem _ h)
    · rcases List.mem_cons.mp h with rfl | h
      · exact .inl (by simp)
      · exact (ih h).imp (List.mem_cons_of_mem _) id

theorem Memory.wf_iff (m : Memory) :
    Memory.wf m = true ↔ Memory.rising m = true ∧ ∀ c ∈ m, c.2 ≠ Memory.unlisted := by
  simp [Memory.wf]

/-- A write keeps the canonical form. -/
theorem Memory.write_wf {m : Memory} (h : Memory.wf m = true) (a : Nat) (v : Byte) :
    Memory.wf (Memory.write m a v) = true := by
  rw [Memory.wf_iff] at h ⊢
  refine ⟨Memory.write_rising h.1 a v, fun c hc => ?_⟩
  rcases Memory.mem_write hc with hm | ⟨rfl, hv⟩
  · exact h.2 c hm
  · exact hv

/-- A write at a display address keeps the memory inside the display. -/
theorem Memory.write_inDisp {m : Memory} (h : Memory.inDisp m = true) {a : Nat} (ha : a < 6) (v : Byte) :
    Memory.inDisp (Memory.write m a v) = true := by
  simp only [Memory.inDisp, List.all_eq_true, decide_eq_true_eq] at h ⊢
  intro c hc
  rcases Memory.mem_write hc with hm | ⟨rfl, _⟩
  · exact h c hm
  · exact ha

theorem Memory.writeBytes_wf {m : Memory} (h : Memory.wf m = true) (a : Nat) (bs : List Byte) :
    Memory.wf (Memory.writeBytes m a bs) = true := by
  induction bs generalizing m a with
  | nil => exact h
  | cons b r ih => exact ih (Memory.write_wf h a b) (a + 1)

theorem Memory.writeBytes_inDisp {m : Memory} (h : Memory.inDisp m = true) {a : Nat} {bs : List Byte}
    (ha : a + bs.length ≤ 6) : Memory.inDisp (Memory.writeBytes m a bs) = true := by
  induction bs generalizing m a with
  | nil => exact h
  | cons b r ih =>
    simp only [List.length_cons] at ha
    exact ih (Memory.write_inDisp h (by omega) b) (by omega)

/-- Bytes outside those written are unchanged. -/
theorem Memory.read_writeBytes_other {m : Memory} (h : Memory.rising m = true) {a b : Nat}
    {bs : List Byte} (hb : b < a ∨ a + bs.length ≤ b) :
    Memory.read (Memory.writeBytes m a bs) b = Memory.read m b := by
  induction bs generalizing m a with
  | nil => rfl
  | cons x r ih =>
    simp only [List.length_cons] at hb
    rw [Memory.writeBytes, ih (Memory.write_rising h a x) (by omega),
      Memory.read_write_other h x (by omega)]

/-- Byte k of those written. -/
theorem Memory.read_writeBytes_same {m : Memory} (h : Memory.rising m = true) {a k : Nat}
    {bs : List Byte} (hk : k < bs.length) :
    Memory.read (Memory.writeBytes m a bs) (a + k) = bs[k] := by
  induction bs generalizing m a k with
  | nil => simp at hk
  | cons x r ih =>
    rw [Memory.writeBytes]
    cases k with
    | zero =>
      rw [Memory.read_writeBytes_other (Memory.write_rising h a x) (by omega)]
      simpa using Memory.read_write_same h a x
    | succ k =>
      have := ih (Memory.write_rising h a x) (a := a + 1) (k := k) (by simpa using hk)
      simpa [Nat.add_assoc, Nat.add_comm 1 k] using this

theorem Memory.wf_nil : Memory.wf [] = true := rfl

theorem Peer.unknown_wf (n : Nat) : Memory.wf (Peer.unknown n).disp = true :=
  Memory.writeBytes_wf Memory.wf_nil _ _

theorem Peer.unknown_inDisp (n : Nat) : Memory.inDisp (Peer.unknown n).disp = true :=
  Memory.writeBytes_inDisp rfl (by simp)

/-- A display position that holds a stored byte reads as it; every other address reads as before. -/
theorem Peer.read_storeData {p : Peer} (h : Memory.wf p.disp = true) (a : BitVec 4) (d : List Byte) :
    (∀ (k : Nat) (b : Byte), d[k]? = some b → a.toNat + k < 6 →
        Memory.read (p.storeData a d).disp (a.toNat + k) = b)
      ∧ ∀ x : Nat, x < a.toNat ∨ a.toNat + d.length ≤ x ∨ 6 ≤ x →
        Memory.read (p.storeData a d).disp x = Memory.read p.disp x := by
  have hr := ((Memory.wf_iff _).mp h).1
  refine ⟨fun k b hk h6 => ?_, fun x hx => Memory.read_writeBytes_other hr ?_⟩
  · obtain ⟨hlt, rfl⟩ := List.getElem?_eq_some_iff.mp hk
    have hk' : k < (d.take (6 - a.toNat)).length := by rw [List.length_take]; omega
    exact (Memory.read_writeBytes_same hr hk').trans List.getElem_take
  · rw [List.length_take]; omega

@[simp] theorem Peer.storeData_on (p : Peer) (a : BitVec 4) (d : List Byte) : (p.storeData a d).on = p.on := rfl
@[simp] theorem Peer.storeData_bright (p : Peer) (a : BitVec 4) (d : List Byte) :
    (p.storeData a d).bright = p.bright := rfl
@[simp] theorem Peer.storeData_autoInc (p : Peer) (a : BitVec 4) (d : List Byte) :
    (p.storeData a d).autoInc = p.autoInc := rfl

theorem Peer.storeData_wf {p : Peer} (h : Memory.wf p.disp = true) (a : BitVec 4) (d : List Byte) :
    Memory.wf (p.storeData a d).disp = true := Memory.writeBytes_wf h _ _

theorem Peer.storeData_inDisp {p : Peer} (h : Memory.inDisp p.disp = true) (a : BitVec 4) (d : List Byte) :
    Memory.inDisp (p.storeData a d).disp = true := by
  by_cases ha : a.toNat ≤ 6
  · exact Memory.writeBytes_inDisp h (by rw [List.length_take]; omega)
  · have h0 : 6 - a.toNat = 0 := by omega
    simpa [Peer.storeData, h0, Memory.writeBytes] using h

/-- A received transaction keeps the canonical form. -/
theorem Peer.receive_wf {p q : Peer} {bs : List Byte} (h : p.receive bs = some q)
    (hp : Memory.wf p.disp = true) : Memory.wf q.disp = true := by
  unfold Peer.receive at h
  split at h
  · cases h
  · split_ifs at h <;> cases h <;> first | exact hp | exact Peer.storeData_wf hp _ _

/-- A received transaction keeps the memory inside the display. -/
theorem Peer.receive_inDisp {p q : Peer} {bs : List Byte} (h : p.receive bs = some q)
    (hp : Memory.inDisp p.disp = true) : Memory.inDisp q.disp = true := by
  unfold Peer.receive at h
  split at h
  · cases h
  · split_ifs at h <;> cases h <;> first | exact hp | exact Peer.storeData_inDisp hp _ _

end Sys2Proof.Machine
end

