-- ==== Sys2Proof/Laws/Link.lean ====
section
/-! SUPPORT. What a wire primitive and a transaction do to the link, said once. -/

namespace Sys2Proof.Machine

/-! ### Lines -/

@[simp] theorem Lines.driveAll_nil (l : Lines) : l.driveAll [] = l := rfl
@[simp] theorem Lines.driveAll_cons (l : Lines) (e : WireEvent) (es : List WireEvent) :
    l.driveAll (e :: es) = (l.drive e).driveAll es := rfl
@[simp] theorem Lines.driveAll_append (l : Lines) (es fs : List WireEvent) :
    l.driveAll (es ++ fs) = (l.driveAll es).driveAll fs := by simp [Lines.driveAll]

/-- The line state after START (R131). -/
@[simp] theorem driveAll_start (l : Lines) : l.driveAll startEvents = ⟨.low, .low, .output⟩ := rfl

/-- The line state after STOP: the idle bus (R132). -/
@[simp] theorem driveAll_stop (l : Lines) : l.driveAll stopEvents = Lines.idleBus := rfl

/-- The line state after WRBYTE (R134). -/
@[simp] theorem driveAll_byte (l : Lines) (v : Byte) (a : Level) :
    l.driveAll (byteEvents v a) = ⟨.high, .low, .output⟩ := by
  simp [byteEvents, ackEvents, Lines.drive]

/-! ### One byte -/

theorem slotEvents_length (b : Bool) : (slotEvents b).length = 3 := rfl

theorem dataEvents_length (v : Byte) : (dataEvents v).length = 24 := by
  simp [dataEvents, slotEvents]

theorem byteEvents_length (v : Byte) (a : Level) : (byteEvents v a).length = 30 := by
  simp [byteEvents, dataEvents_length, ackEvents]

/-- Erasing acknowledgments makes the events of a byte independent of its level (R135). -/
theorem byteEvents_eraseAck (v : Byte) (a b : Level) :
    (byteEvents v a).map eraseAck = (byteEvents v b).map eraseAck := by
  simp [byteEvents, ackEvents, eraseAck]

/-! ### The events of a list of bytes -/

/-- The acknowledgment levels a link draws for n bytes. -/
def Link.acks (l : Link) : Nat → List Level
  | 0 => []
  | n + 1 => l.ackLevel :: (l.ackTaken).acks n

/-- The link after n draws. -/
def Link.acksTaken (l : Link) : Nat → Link
  | 0 => l
  | n + 1 => (l.ackTaken).acksTaken n

/-- The events of bytes with their acknowledgment levels. -/
def bytesEvents : List Byte → List Level → List WireEvent
  | v :: vs, a :: as => byteEvents v a ++ bytesEvents vs as
  | _, _ => []

theorem Link.acks_length (l : Link) (n : Nat) : (l.acks n).length = n := by
  induction n generalizing l with
  | zero => rfl
  | succ n ih => simp [Link.acks, ih]

theorem bytesEvents_length {vs : List Byte} {as : List Level} (h : as.length = vs.length) :
    (bytesEvents vs as).length = 30 * vs.length := by
  induction vs generalizing as with
  | nil => cases as <;> rfl
  | cons v vs ih =>
    cases as with
    | nil => simp at h
    | cons a as =>
      simp only [List.length_cons, Nat.add_right_cancel_iff] at h
      simp only [bytesEvents, List.length_append, byteEvents_length, ih h, List.length_cons]
      omega

/-- Reception of bytes with their acknowledgment levels. -/
def Reception.pushAll (r : Reception) : List Byte → List Level → Reception
  | v :: vs, a :: as => (r.push v a).pushAll vs as
  | _, _ => r

@[simp] theorem ackTaken_lines (l : Link) : l.ackTaken.lines = l.lines := by
  unfold Link.ackTaken; split <;> rfl
@[simp] theorem ackTaken_wire (l : Link) : l.ackTaken.wire = l.wire := by
  unfold Link.ackTaken; split <;> rfl
@[simp] theorem ackTaken_peer (l : Link) : l.ackTaken.peer = l.peer := by
  unfold Link.ackTaken; split <;> rfl
@[simp] theorem ackTaken_rx (l : Link) : l.ackTaken.rx = l.rx := by
  unfold Link.ackTaken; split <;> rfl

@[simp] theorem wrByte_lines (l : Link) (v : Byte) (a : Level) :
    (l.wrByte v a).lines = ⟨.high, .low, .output⟩ := by simp [Link.wrByte, Link.emitAll]
@[simp] theorem wrByte_wire (l : Link) (v : Byte) (a : Level) :
    (l.wrByte v a).wire = l.wire ++ byteEvents v a := rfl
@[simp] theorem wrByte_dioIn (l : Link) (v : Byte) (a : Level) : (l.wrByte v a).dioIn = l.dioIn := rfl
@[simp] theorem wrByte_draws (l : Link) (v : Byte) (a : Level) : (l.wrByte v a).draws = l.draws := rfl
@[simp] theorem wrByte_peer (l : Link) (v : Byte) (a : Level) : (l.wrByte v a).peer = l.peer := rfl
@[simp] theorem wrByte_rx (l : Link) (v : Byte) (a : Level) : (l.wrByte v a).rx = l.rx.push v a := rfl

theorem ackLevel_wrByte (l : Link) (v : Byte) (a : Level) : (l.wrByte v a).ackLevel = l.ackLevel := rfl

theorem ackTaken_wrByte (l : Link) (v : Byte) (a : Level) :
    (l.wrByte v a).ackTaken = l.ackTaken.wrByte v a := by
  cases l with | mk lines wire dioIn draws peer rx => cases dioIn <;> rfl

theorem acks_wrByte (l : Link) (v : Byte) (a : Level) (n : Nat) : (l.wrByte v a).acks n = l.acks n := by
  induction n generalizing l with
  | zero => rfl
  | succ n ih => simp only [Link.acks, ackLevel_wrByte, ackTaken_wrByte, ih]

theorem acksTaken_wrByte (l : Link) (v : Byte) (a : Level) (n : Nat) :
    (l.wrByte v a).acksTaken n = (l.acksTaken n).wrByte v a := by
  induction n generalizing l with
  | zero => rfl
  | succ n ih => simp only [Link.acksTaken, ackTaken_wrByte, ih]

/-- The last line state of a non-empty list of bytes. -/
theorem sendBytes_lines {l : Link} {vs : List Byte} (h : vs ≠ []) :
    (l.sendBytes vs).lines = ⟨.high, .low, .output⟩ := by
  induction vs generalizing l with
  | nil => exact absurd rfl h
  | cons v vs ih =>
    cases vs with
    | nil => simp [Link.sendBytes, Link.sendByte]
    | cons w ws => rw [Link.sendBytes]; exact ih (by simp)

theorem sendBytes_peer (l : Link) (vs : List Byte) : (l.sendBytes vs).peer = l.peer := by
  induction vs generalizing l with
  | nil => rfl
  | cons v vs ih => rw [Link.sendBytes, ih]; simp [Link.sendByte]

theorem sendBytes_wire (l : Link) (vs : List Byte) :
    (l.sendBytes vs).wire = l.wire ++ bytesEvents vs (l.acks vs.length) := by
  induction vs generalizing l with
  | nil => simp [Link.sendBytes, bytesEvents]
  | cons v vs ih =>
    rw [Link.sendBytes, ih]
    simp [Link.sendByte, Link.acks, bytesEvents, acks_wrByte]

theorem sendBytes_rx (l : Link) (vs : List Byte) :
    (l.sendBytes vs).rx = l.rx.pushAll vs (l.acks vs.length) := by
  induction vs generalizing l with
  | nil => simp [Link.sendBytes, Reception.pushAll]
  | cons v vs ih =>
    rw [Link.sendBytes, ih]
    simp [Link.sendByte, Link.acks, Reception.pushAll, acks_wrByte]

theorem sendBytes_dioIn (l : Link) (vs : List Byte) :
    (l.sendBytes vs).dioIn = (l.acksTaken vs.length).dioIn := by
  induction vs generalizing l with
  | nil => rfl
  | cons v vs ih =>
    rw [Link.sendBytes, ih]
    simp [Link.sendByte, Link.acksTaken, acksTaken_wrByte]

/-- The levels lined up are the ones drawn. -/
theorem acks_lined_up {l : Link} {as rest : List Level} (h : l.dioIn = as ++ rest) :
    l.acks as.length = as ∧ (l.acksTaken as.length).dioIn = rest := by
  induction as generalizing l with
  | nil => exact ⟨rfl, by simpa [Link.acksTaken] using h⟩
  | cons a as ih =>
    have h1 : l.ackLevel = a := by simp [Link.ackLevel, h]
    have h2 : l.ackTaken.dioIn = as ++ rest := by simp [Link.ackTaken, h]
    obtain ⟨h3, h4⟩ := ih h2
    exact ⟨by simp [Link.acks, h1, h3], by simpa [Link.acksTaken] using h4⟩

theorem pushAll_receiving {vs : List Byte} {as : List Level} (h : as.length = vs.length)
    (bs : List Byte) (acked : Bool) :
    (Reception.receiving bs acked).pushAll vs as
      = .receiving (bs ++ vs) (acked && as.all (fun a => decide (a = .low))) := by
  induction vs generalizing as bs acked with
  | nil =>
    cases as with
    | nil => simp [Reception.pushAll]
    | cons a as => simp at h
  | cons v vs ih =>
    cases as with
    | nil => simp at h
    | cons a as =>
      simp only [List.length_cons, Nat.add_right_cancel_iff] at h
      simp [Reception.pushAll, Reception.push, ih h, Bool.and_assoc]

/-! ### The end of a transaction -/

@[simp] theorem complete_lines (l : Link) : l.complete.lines = l.lines := by
  unfold Link.complete; split
  · rfl
  · split <;> rfl
@[simp] theorem complete_wire (l : Link) : l.complete.wire = l.wire := by
  unfold Link.complete; split
  · rfl
  · split <;> rfl
@[simp] theorem complete_dioIn (l : Link) : l.complete.dioIn = l.dioIn := by
  unfold Link.complete; split
  · rfl
  · split <;> rfl
@[simp] theorem complete_rx (l : Link) : l.complete.rx = .closed := by
  unfold Link.complete; split
  · assumption
  · split <;> rfl

theorem complete_wf {l : Link} (h : Memory.wf l.peer.disp = true) : Memory.wf l.complete.peer.disp = true := by
  unfold Link.complete; split
  · exact h
  · split
    · rename_i q hq
      split_ifs at hq
      exact Peer.receive_wf hq h
    · exact Peer.unknown_wf _

theorem complete_inDisp {l : Link} (h : Memory.inDisp l.peer.disp = true) :
    Memory.inDisp l.complete.peer.disp = true := by
  unfold Link.complete; split
  · exact h
  · split
    · rename_i q hq
      split_ifs at hq
      exact Peer.receive_inDisp hq h
    · exact Peer.unknown_inDisp _

/-! ### A transaction (R136) -/

/-- The events of a transaction with its acknowledgment levels. -/
def txnEvents (vs : List Byte) (as : List Level) : List WireEvent :=
  startEvents ++ bytesEvents vs as ++ stopEvents

theorem startCond_acks (l : Link) (n : Nat) : (l.startCond).acks n = l.acks n := by
  have h : ∀ (n : Nat) (m : Link) (lines : Lines) (wire : List WireEvent) (rx : Reception),
      Link.acks { m with lines := lines, wire := wire, rx := rx } n = m.acks n := by
    intro n
    induction n with
    | zero => intros; rfl
    | succ n ih =>
      intro m lines wire rx
      cases m with
      | mk lines' wire' dioIn draws peer rx' =>
        cases dioIn with
        | nil => exact congrArg _ (ih ⟨lines', wire', [], draws + 1, peer, rx'⟩ lines wire rx)
        | cons a as => exact congrArg _ (ih ⟨lines', wire', as, draws, peer, rx'⟩ lines wire rx)
  exact h n l _ _ _

theorem startCond_acksTaken_dioIn (l : Link) (n : Nat) :
    ((l.startCond).acksTaken n).dioIn = (l.acksTaken n).dioIn := by
  have h : ∀ (n : Nat) (m : Link) (lines : Lines) (wire : List WireEvent) (rx : Reception),
      (Link.acksTaken { m with lines := lines, wire := wire, rx := rx } n).dioIn
        = (m.acksTaken n).dioIn := by
    intro n
    induction n with
    | zero => intros; rfl
    | succ n ih =>
      intro m lines wire rx
      cases m with
      | mk lines' wire' dioIn draws peer rx' =>
        cases dioIn with
        | nil => exact ih ⟨lines', wire', [], draws + 1, peer, rx'⟩ lines wire rx
        | cons a as => exact ih ⟨lines', wire', as, draws, peer, rx'⟩ lines wire rx
  exact h n l _ _ _

@[simp] theorem transact_lines (l : Link) (vs : List Byte) : (l.transact vs).lines = Lines.idleBus := by
  simp [Link.transact, Link.stopCond, Link.emitAll]

@[simp] theorem transact_rx (l : Link) (vs : List Byte) : (l.transact vs).rx = .closed := by
  simp [Link.transact, Link.stopCond]

theorem startCond_wire (l : Link) : l.startCond.wire = l.wire ++ startEvents := rfl

/-- The trace after a transaction. -/
theorem transact_wire (l : Link) (vs : List Byte) :
    (l.transact vs).wire = l.wire ++ txnEvents vs (l.acks vs.length) := by
  simp [Link.transact, Link.stopCond, Link.emitAll, sendBytes_wire, startCond_acks, txnEvents,
    startCond_wire, List.append_assoc]

theorem transact_dioIn (l : Link) (vs : List Byte) :
    (l.transact vs).dioIn = (l.acksTaken vs.length).dioIn := by
  simp [Link.transact, Link.stopCond, Link.emitAll, sendBytes_dioIn, startCond_acksTaken_dioIn]

theorem transact_wf {l : Link} (h : Memory.wf l.peer.disp = true) (vs : List Byte) :
    Memory.wf (l.transact vs).peer.disp = true := by
  refine complete_wf ?_
  show Memory.wf (l.startCond.sendBytes vs).peer.disp = true
  rw [sendBytes_peer]; exact h

theorem transact_inDisp {l : Link} (h : Memory.inDisp l.peer.disp = true) (vs : List Byte) :
    Memory.inDisp (l.transact vs).peer.disp = true := by
  refine complete_inDisp ?_
  show Memory.inDisp (l.startCond.sendBytes vs).peer.disp = true
  rw [sendBytes_peer]; exact h

/-- The peer after a transaction whose bytes are all acknowledged (20_memory.md R66). -/
theorem transact_peer {l : Link} {vs : List Byte} {q : Peer}
    (hack : (l.acks vs.length).all (fun a => decide (a = .low)) = true)
    (hq : l.peer.receive vs = some q) : (l.transact vs).peer = q := by
  have hrx : (l.startCond.sendBytes vs).rx = .receiving vs true := by
    rw [sendBytes_rx, startCond_acks]
    show (Reception.receiving [] true).pushAll vs _ = _
    rw [pushAll_receiving (Link.acks_length l _), hack]; rfl
  have hp : (l.startCond.sendBytes vs).peer = l.peer := by rw [sendBytes_peer]; rfl
  simp [Link.transact, Link.stopCond, Link.emitAll, Link.complete, hrx, hp, hq]

end Sys2Proof.Machine
end

