-- ==== Sys2Proof/Laws/State.lean ====
section
/-! SUPPORT. One lemma per field per named update of State. -/

namespace Sys2Proof.Machine

/-! ### transact -/

@[simp] theorem transact_cfg (bytes : List Byte) (s : State) :
    (transact bytes s).cfg = s.cfg := rfl
@[simp] theorem transact_score (bytes : List Byte) (s : State) :
    (transact bytes s).score = s.score := rfl
@[simp] theorem transact_dur (bytes : List Byte) (s : State) :
    (transact bytes s).dur = s.dur := rfl
@[simp] theorem transact_evt (bytes : List Byte) (s : State) :
    (transact bytes s).evt = s.evt := rfl
@[simp] theorem transact_resetReq (bytes : List Byte) (s : State) :
    (transact bytes s).resetReq = s.resetReq := rfl
@[simp] theorem transact_voided (bytes : List Byte) (s : State) :
    (transact bytes s).voided = s.voided := rfl
@[simp] theorem transact_run (bytes : List Byte) (s : State) :
    (transact bytes s).run = s.run := rfl
@[simp] theorem transact_now (bytes : List Byte) (s : State) :
    (transact bytes s).now = s.now := rfl
@[simp] theorem transact_stateTime (bytes : List Byte) (s : State) :
    (transact bytes s).stateTime = s.stateTime := rfl
@[simp] theorem transact_brightness (bytes : List Byte) (s : State) :
    (transact bytes s).brightness = s.brightness := rfl
@[simp] theorem transact_mphase (bytes : List Byte) (s : State) :
    (transact bytes s).mphase = s.mphase := rfl
@[simp] theorem transact_snapReset (bytes : List Byte) (s : State) :
    (transact bytes s).snapReset = s.snapReset := rfl
@[simp] theorem transact_snapEvt (bytes : List Byte) (s : State) :
    (transact bytes s).snapEvt = s.snapEvt := rfl
@[simp] theorem transact_snapNow (bytes : List Byte) (s : State) :
    (transact bytes s).snapNow = s.snapNow := rfl
@[simp] theorem transact_frame (bytes : List Byte) (s : State) :
    (transact bytes s).frame = s.frame := rfl
@[simp] theorem transact_link (bytes : List Byte) (s : State) :
    (transact bytes s).link = s.link.transact bytes := rfl
@[simp] theorem transact_pending (bytes : List Byte) (s : State) :
    (transact bytes s).pending = s.pending := rfl
@[simp] theorem transact_port (bytes : List Byte) (s : State) :
    (transact bytes s).port = s.port := rfl
@[simp] theorem transact_draws (bytes : List Byte) (s : State) :
    (transact bytes s).draws = s.draws := rfl
@[simp] theorem transact_result (bytes : List Byte) (s : State) :
    (transact bytes s).result = s.result := rfl

/-! ### transmit -/

@[simp] theorem transmit_cfg (bytes : List Byte) (s : State) :
    (transmit bytes s).cfg = s.cfg := rfl
@[simp] theorem transmit_score (bytes : List Byte) (s : State) :
    (transmit bytes s).score = s.score := rfl
@[simp] theorem transmit_dur (bytes : List Byte) (s : State) :
    (transmit bytes s).dur = s.dur := rfl
@[simp] theorem transmit_evt (bytes : List Byte) (s : State) :
    (transmit bytes s).evt = s.evt := rfl
@[simp] theorem transmit_resetReq (bytes : List Byte) (s : State) :
    (transmit bytes s).resetReq = s.resetReq := rfl
@[simp] theorem transmit_voided (bytes : List Byte) (s : State) :
    (transmit bytes s).voided = s.voided := rfl
@[simp] theorem transmit_run (bytes : List Byte) (s : State) :
    (transmit bytes s).run = s.run := rfl
@[simp] theorem transmit_now (bytes : List Byte) (s : State) :
    (transmit bytes s).now = s.now := rfl
@[simp] theorem transmit_stateTime (bytes : List Byte) (s : State) :
    (transmit bytes s).stateTime = s.stateTime := rfl
@[simp] theorem transmit_brightness (bytes : List Byte) (s : State) :
    (transmit bytes s).brightness = s.brightness := rfl
@[simp] theorem transmit_mphase (bytes : List Byte) (s : State) :
    (transmit bytes s).mphase = s.mphase := rfl
@[simp] theorem transmit_snapReset (bytes : List Byte) (s : State) :
    (transmit bytes s).snapReset = s.snapReset := rfl
@[simp] theorem transmit_snapEvt (bytes : List Byte) (s : State) :
    (transmit bytes s).snapEvt = s.snapEvt := rfl
@[simp] theorem transmit_snapNow (bytes : List Byte) (s : State) :
    (transmit bytes s).snapNow = s.snapNow := rfl
@[simp] theorem transmit_frame (bytes : List Byte) (s : State) :
    (transmit bytes s).frame = s.frame := rfl
@[simp] theorem transmit_link (bytes : List Byte) (s : State) :
    (transmit bytes s).link = s.link.sendBytes bytes := rfl
@[simp] theorem transmit_pending (bytes : List Byte) (s : State) :
    (transmit bytes s).pending = s.pending := rfl
@[simp] theorem transmit_port (bytes : List Byte) (s : State) :
    (transmit bytes s).port = s.port := rfl
@[simp] theorem transmit_draws (bytes : List Byte) (s : State) :
    (transmit bytes s).draws = s.draws := rfl
@[simp] theorem transmit_result (bytes : List Byte) (s : State) :
    (transmit bytes s).result = s.result := rfl

/-! ### storeBrightness -/

@[simp] theorem storeBrightness_cfg (l : BitVec 3) (s : State) :
    (storeBrightness l s).cfg = s.cfg := rfl
@[simp] theorem storeBrightness_score (l : BitVec 3) (s : State) :
    (storeBrightness l s).score = s.score := rfl
@[simp] theorem storeBrightness_dur (l : BitVec 3) (s : State) :
    (storeBrightness l s).dur = s.dur := rfl
@[simp] theorem storeBrightness_evt (l : BitVec 3) (s : State) :
    (storeBrightness l s).evt = s.evt := rfl
@[simp] theorem storeBrightness_resetReq (l : BitVec 3) (s : State) :
    (storeBrightness l s).resetReq = s.resetReq := rfl
@[simp] theorem storeBrightness_voided (l : BitVec 3) (s : State) :
    (storeBrightness l s).voided = s.voided := rfl
@[simp] theorem storeBrightness_run (l : BitVec 3) (s : State) :
    (storeBrightness l s).run = s.run := rfl
@[simp] theorem storeBrightness_now (l : BitVec 3) (s : State) :
    (storeBrightness l s).now = s.now := rfl
@[simp] theorem storeBrightness_stateTime (l : BitVec 3) (s : State) :
    (storeBrightness l s).stateTime = s.stateTime := rfl
@[simp] theorem storeBrightness_brightness (l : BitVec 3) (s : State) :
    (storeBrightness l s).brightness = l := rfl
@[simp] theorem storeBrightness_mphase (l : BitVec 3) (s : State) :
    (storeBrightness l s).mphase = s.mphase := rfl
@[simp] theorem storeBrightness_snapReset (l : BitVec 3) (s : State) :
    (storeBrightness l s).snapReset = s.snapReset := rfl
@[simp] theorem storeBrightness_snapEvt (l : BitVec 3) (s : State) :
    (storeBrightness l s).snapEvt = s.snapEvt := rfl
@[simp] theorem storeBrightness_snapNow (l : BitVec 3) (s : State) :
    (storeBrightness l s).snapNow = s.snapNow := rfl
@[simp] theorem storeBrightness_frame (l : BitVec 3) (s : State) :
    (storeBrightness l s).frame = s.frame := rfl
@[simp] theorem storeBrightness_link (l : BitVec 3) (s : State) :
    (storeBrightness l s).link = s.link := rfl
@[simp] theorem storeBrightness_pending (l : BitVec 3) (s : State) :
    (storeBrightness l s).pending = s.pending := rfl
@[simp] theorem storeBrightness_port (l : BitVec 3) (s : State) :
    (storeBrightness l s).port = s.port := rfl
@[simp] theorem storeBrightness_draws (l : BitVec 3) (s : State) :
    (storeBrightness l s).draws = s.draws := rfl
@[simp] theorem storeBrightness_result (l : BitVec 3) (s : State) :
    (storeBrightness l s).result = s.result := rfl

/-! ### clockIncrement -/

@[simp] theorem clockIncrement_cfg (s : State) :
    (clockIncrement s).cfg = s.cfg := rfl
@[simp] theorem clockIncrement_score (s : State) :
    (clockIncrement s).score = s.score := rfl
@[simp] theorem clockIncrement_dur (s : State) :
    (clockIncrement s).dur = s.dur := rfl
@[simp] theorem clockIncrement_evt (s : State) :
    (clockIncrement s).evt = s.evt := rfl
@[simp] theorem clockIncrement_resetReq (s : State) :
    (clockIncrement s).resetReq = s.resetReq := rfl
@[simp] theorem clockIncrement_voided (s : State) :
    (clockIncrement s).voided = s.voided := rfl
@[simp] theorem clockIncrement_run (s : State) :
    (clockIncrement s).run = s.run := rfl
@[simp] theorem clockIncrement_now (s : State) :
    (clockIncrement s).now = tickInc s.cfg.tickBits s.now := rfl
@[simp] theorem clockIncrement_stateTime (s : State) :
    (clockIncrement s).stateTime = s.stateTime := rfl
@[simp] theorem clockIncrement_brightness (s : State) :
    (clockIncrement s).brightness = s.brightness := rfl
@[simp] theorem clockIncrement_mphase (s : State) :
    (clockIncrement s).mphase = s.mphase := rfl
@[simp] theorem clockIncrement_snapReset (s : State) :
    (clockIncrement s).snapReset = s.snapReset := rfl
@[simp] theorem clockIncrement_snapEvt (s : State) :
    (clockIncrement s).snapEvt = s.snapEvt := rfl
@[simp] theorem clockIncrement_snapNow (s : State) :
    (clockIncrement s).snapNow = s.snapNow := rfl
@[simp] theorem clockIncrement_frame (s : State) :
    (clockIncrement s).frame = s.frame := rfl
@[simp] theorem clockIncrement_link (s : State) :
    (clockIncrement s).link = s.link := rfl
@[simp] theorem clockIncrement_pending (s : State) :
    (clockIncrement s).pending = s.pending := rfl
@[simp] theorem clockIncrement_port (s : State) :
    (clockIncrement s).port = s.port := rfl
@[simp] theorem clockIncrement_draws (s : State) :
    (clockIncrement s).draws = s.draws := rfl
@[simp] theorem clockIncrement_result (s : State) :
    (clockIncrement s).result = s.result := rfl

/-! ### deliver -/

@[simp] theorem deliver_cfg (b : Byte) (s : State) :
    (deliver b s).cfg = s.cfg := rfl
@[simp] theorem deliver_score (b : Byte) (s : State) :
    (deliver b s).score = s.score := rfl
@[simp] theorem deliver_dur (b : Byte) (s : State) :
    (deliver b s).dur = s.dur := rfl
@[simp] theorem deliver_evt (b : Byte) (s : State) :
    (deliver b s).evt = s.evt := rfl
@[simp] theorem deliver_resetReq (b : Byte) (s : State) :
    (deliver b s).resetReq = s.resetReq := rfl
@[simp] theorem deliver_voided (b : Byte) (s : State) :
    (deliver b s).voided = s.voided := rfl
@[simp] theorem deliver_run (b : Byte) (s : State) :
    (deliver b s).run = s.run := rfl
@[simp] theorem deliver_now (b : Byte) (s : State) :
    (deliver b s).now = s.now := rfl
@[simp] theorem deliver_stateTime (b : Byte) (s : State) :
    (deliver b s).stateTime = s.stateTime := rfl
@[simp] theorem deliver_brightness (b : Byte) (s : State) :
    (deliver b s).brightness = s.brightness := rfl
@[simp] theorem deliver_mphase (b : Byte) (s : State) :
    (deliver b s).mphase = s.mphase := rfl
@[simp] theorem deliver_snapReset (b : Byte) (s : State) :
    (deliver b s).snapReset = s.snapReset := rfl
@[simp] theorem deliver_snapEvt (b : Byte) (s : State) :
    (deliver b s).snapEvt = s.snapEvt := rfl
@[simp] theorem deliver_snapNow (b : Byte) (s : State) :
    (deliver b s).snapNow = s.snapNow := rfl
@[simp] theorem deliver_frame (b : Byte) (s : State) :
    (deliver b s).frame = s.frame := rfl
@[simp] theorem deliver_link (b : Byte) (s : State) :
    (deliver b s).link = s.link := rfl
@[simp] theorem deliver_pending (b : Byte) (s : State) :
    (deliver b s).pending = s.pending := rfl
@[simp] theorem deliver_port (b : Byte) (s : State) :
    (deliver b s).port = s.port := rfl
@[simp] theorem deliver_draws (b : Byte) (s : State) :
    (deliver b s).draws = s.draws := rfl
@[simp] theorem deliver_result (b : Byte) (s : State) :
    (deliver b s).result = b := rfl

/-! ### setPress -/

@[simp] theorem setPress_cfg (b : Idx) (p : Press) (s : State) :
    (setPress b p s).cfg = s.cfg := rfl
@[simp] theorem setPress_score (b : Idx) (p : Press) (s : State) :
    (setPress b p s).score = s.score := rfl
@[simp] theorem setPress_dur (b : Idx) (p : Press) (s : State) :
    (setPress b p s).dur = s.dur.set b p.dur := rfl
@[simp] theorem setPress_evt (b : Idx) (p : Press) (s : State) :
    (setPress b p s).evt = s.evt := rfl
@[simp] theorem setPress_resetReq (b : Idx) (p : Press) (s : State) :
    (setPress b p s).resetReq = s.resetReq := rfl
@[simp] theorem setPress_voided (b : Idx) (p : Press) (s : State) :
    (setPress b p s).voided = s.voided.set b p.voided := rfl
@[simp] theorem setPress_run (b : Idx) (p : Press) (s : State) :
    (setPress b p s).run = s.run := rfl
@[simp] theorem setPress_now (b : Idx) (p : Press) (s : State) :
    (setPress b p s).now = s.now := rfl
@[simp] theorem setPress_stateTime (b : Idx) (p : Press) (s : State) :
    (setPress b p s).stateTime = s.stateTime := rfl
@[simp] theorem setPress_brightness (b : Idx) (p : Press) (s : State) :
    (setPress b p s).brightness = s.brightness := rfl
@[simp] theorem setPress_mphase (b : Idx) (p : Press) (s : State) :
    (setPress b p s).mphase = s.mphase := rfl
@[simp] theorem setPress_snapReset (b : Idx) (p : Press) (s : State) :
    (setPress b p s).snapReset = s.snapReset := rfl
@[simp] theorem setPress_snapEvt (b : Idx) (p : Press) (s : State) :
    (setPress b p s).snapEvt = s.snapEvt := rfl
@[simp] theorem setPress_snapNow (b : Idx) (p : Press) (s : State) :
    (setPress b p s).snapNow = s.snapNow := rfl
@[simp] theorem setPress_frame (b : Idx) (p : Press) (s : State) :
    (setPress b p s).frame = s.frame := rfl
@[simp] theorem setPress_link (b : Idx) (p : Press) (s : State) :
    (setPress b p s).link = s.link := rfl
@[simp] theorem setPress_pending (b : Idx) (p : Press) (s : State) :
    (setPress b p s).pending = s.pending := rfl
@[simp] theorem setPress_port (b : Idx) (p : Press) (s : State) :
    (setPress b p s).port = s.port := rfl
@[simp] theorem setPress_draws (b : Idx) (p : Press) (s : State) :
    (setPress b p s).draws = s.draws := rfl
@[simp] theorem setPress_result (b : Idx) (p : Press) (s : State) :
    (setPress b p s).result = s.result := rfl

/-! ### applyReset -/

@[simp] theorem applyReset_cfg (s : State) :
    (applyReset s).cfg = s.cfg := rfl
@[simp] theorem applyReset_score (s : State) :
    (applyReset s).score = ⟨s.cfg.scoreMax, s.cfg.scoreMax⟩ := rfl
@[simp] theorem applyReset_dur (s : State) :
    (applyReset s).dur = s.dur := rfl
@[simp] theorem applyReset_evt (s : State) :
    (applyReset s).evt = s.evt := rfl
@[simp] theorem applyReset_resetReq (s : State) :
    (applyReset s).resetReq = s.resetReq := rfl
@[simp] theorem applyReset_voided (s : State) :
    (applyReset s).voided = s.voided := rfl
@[simp] theorem applyReset_run (s : State) :
    (applyReset s).run = .idle := rfl
@[simp] theorem applyReset_now (s : State) :
    (applyReset s).now = s.now := rfl
@[simp] theorem applyReset_stateTime (s : State) :
    (applyReset s).stateTime = s.stateTime := rfl
@[simp] theorem applyReset_brightness (s : State) :
    (applyReset s).brightness = s.brightness := rfl
@[simp] theorem applyReset_mphase (s : State) :
    (applyReset s).mphase = s.mphase := rfl
@[simp] theorem applyReset_snapReset (s : State) :
    (applyReset s).snapReset = s.snapReset := rfl
@[simp] theorem applyReset_snapEvt (s : State) :
    (applyReset s).snapEvt = s.snapEvt := rfl
@[simp] theorem applyReset_snapNow (s : State) :
    (applyReset s).snapNow = s.snapNow := rfl
@[simp] theorem applyReset_frame (s : State) :
    (applyReset s).frame = s.frame := rfl
@[simp] theorem applyReset_link (s : State) :
    (applyReset s).link = s.link := rfl
@[simp] theorem applyReset_pending (s : State) :
    (applyReset s).pending = s.pending := rfl
@[simp] theorem applyReset_port (s : State) :
    (applyReset s).port = s.port := rfl
@[simp] theorem applyReset_draws (s : State) :
    (applyReset s).draws = s.draws := rfl
@[simp] theorem applyReset_result (s : State) :
    (applyReset s).result = s.result := rfl

/-! ### activate -/

@[simp] theorem activate_cfg (j : Idx) (s : State) :
    (activate j s).cfg = s.cfg := rfl
@[simp] theorem activate_score (j : Idx) (s : State) :
    (activate j s).score = s.score := rfl
@[simp] theorem activate_dur (j : Idx) (s : State) :
    (activate j s).dur = s.dur := rfl
@[simp] theorem activate_evt (j : Idx) (s : State) :
    (activate j s).evt = s.evt := rfl
@[simp] theorem activate_resetReq (j : Idx) (s : State) :
    (activate j s).resetReq = s.resetReq := rfl
@[simp] theorem activate_voided (j : Idx) (s : State) :
    (activate j s).voided = s.voided := rfl
@[simp] theorem activate_run (j : Idx) (s : State) :
    (activate j s).run = RunState.active j := rfl
@[simp] theorem activate_now (j : Idx) (s : State) :
    (activate j s).now = s.now := rfl
@[simp] theorem activate_stateTime (j : Idx) (s : State) :
    (activate j s).stateTime = s.snapNow := rfl
@[simp] theorem activate_brightness (j : Idx) (s : State) :
    (activate j s).brightness = s.brightness := rfl
@[simp] theorem activate_mphase (j : Idx) (s : State) :
    (activate j s).mphase = s.mphase := rfl
@[simp] theorem activate_snapReset (j : Idx) (s : State) :
    (activate j s).snapReset = s.snapReset := rfl
@[simp] theorem activate_snapEvt (j : Idx) (s : State) :
    (activate j s).snapEvt = s.snapEvt := rfl
@[simp] theorem activate_snapNow (j : Idx) (s : State) :
    (activate j s).snapNow = s.snapNow := rfl
@[simp] theorem activate_frame (j : Idx) (s : State) :
    (activate j s).frame = s.frame := rfl
@[simp] theorem activate_link (j : Idx) (s : State) :
    (activate j s).link = s.link := rfl
@[simp] theorem activate_pending (j : Idx) (s : State) :
    (activate j s).pending = s.pending := rfl
@[simp] theorem activate_port (j : Idx) (s : State) :
    (activate j s).port = s.port := rfl
@[simp] theorem activate_draws (j : Idx) (s : State) :
    (activate j s).draws = s.draws := rfl
@[simp] theorem activate_result (j : Idx) (s : State) :
    (activate j s).result = s.result := rfl

/-! ### editActive -/

@[simp] theorem editActive_cfg (j : Idx) (e : ButtonEvent) (sd : Idx) (s : State) :
    (editActive j e sd s).cfg = s.cfg := rfl
@[simp] theorem editActive_score (j : Idx) (e : ButtonEvent) (sd : Idx) (s : State) :
    (editActive j e sd s).score = s.score.set sd (editScore s.cfg j e (s.score.get sd)) := rfl
@[simp] theorem editActive_dur (j : Idx) (e : ButtonEvent) (sd : Idx) (s : State) :
    (editActive j e sd s).dur = s.dur := rfl
@[simp] theorem editActive_evt (j : Idx) (e : ButtonEvent) (sd : Idx) (s : State) :
    (editActive j e sd s).evt = s.evt := rfl
@[simp] theorem editActive_resetReq (j : Idx) (e : ButtonEvent) (sd : Idx) (s : State) :
    (editActive j e sd s).resetReq = s.resetReq := rfl
@[simp] theorem editActive_voided (j : Idx) (e : ButtonEvent) (sd : Idx) (s : State) :
    (editActive j e sd s).voided = s.voided := rfl
@[simp] theorem editActive_run (j : Idx) (e : ButtonEvent) (sd : Idx) (s : State) :
    (editActive j e sd s).run = s.run := rfl
@[simp] theorem editActive_now (j : Idx) (e : ButtonEvent) (sd : Idx) (s : State) :
    (editActive j e sd s).now = s.now := rfl
@[simp] theorem editActive_stateTime (j : Idx) (e : ButtonEvent) (sd : Idx) (s : State) :
    (editActive j e sd s).stateTime = s.snapNow := rfl
@[simp] theorem editActive_brightness (j : Idx) (e : ButtonEvent) (sd : Idx) (s : State) :
    (editActive j e sd s).brightness = s.brightness := rfl
@[simp] theorem editActive_mphase (j : Idx) (e : ButtonEvent) (sd : Idx) (s : State) :
    (editActive j e sd s).mphase = s.mphase := rfl
@[simp] theorem editActive_snapReset (j : Idx) (e : ButtonEvent) (sd : Idx) (s : State) :
    (editActive j e sd s).snapReset = s.snapReset := rfl
@[simp] theorem editActive_snapEvt (j : Idx) (e : ButtonEvent) (sd : Idx) (s : State) :
    (editActive j e sd s).snapEvt = s.snapEvt := rfl
@[simp] theorem editActive_snapNow (j : Idx) (e : ButtonEvent) (sd : Idx) (s : State) :
    (editActive j e sd s).snapNow = s.snapNow := rfl
@[simp] theorem editActive_frame (j : Idx) (e : ButtonEvent) (sd : Idx) (s : State) :
    (editActive j e sd s).frame = s.frame := rfl
@[simp] theorem editActive_link (j : Idx) (e : ButtonEvent) (sd : Idx) (s : State) :
    (editActive j e sd s).link = s.link := rfl
@[simp] theorem editActive_pending (j : Idx) (e : ButtonEvent) (sd : Idx) (s : State) :
    (editActive j e sd s).pending = s.pending := rfl
@[simp] theorem editActive_port (j : Idx) (e : ButtonEvent) (sd : Idx) (s : State) :
    (editActive j e sd s).port = s.port := rfl
@[simp] theorem editActive_draws (j : Idx) (e : ButtonEvent) (sd : Idx) (s : State) :
    (editActive j e sd s).draws = s.draws := rfl
@[simp] theorem editActive_result (j : Idx) (e : ButtonEvent) (sd : Idx) (s : State) :
    (editActive j e sd s).result = s.result := rfl

/-! ### presentCode -/

@[simp] theorem presentCode_cfg (c : Code) (s : State) :
    (presentCode c s).cfg = s.cfg := rfl
@[simp] theorem presentCode_score (c : Code) (s : State) :
    (presentCode c s).score = s.score := rfl
@[simp] theorem presentCode_dur (c : Code) (s : State) :
    (presentCode c s).dur = s.dur := rfl
@[simp] theorem presentCode_evt (c : Code) (s : State) :
    (presentCode c s).evt = s.evt := rfl
@[simp] theorem presentCode_resetReq (c : Code) (s : State) :
    (presentCode c s).resetReq = s.resetReq := rfl
@[simp] theorem presentCode_voided (c : Code) (s : State) :
    (presentCode c s).voided = s.voided := rfl
@[simp] theorem presentCode_run (c : Code) (s : State) :
    (presentCode c s).run = s.run := rfl
@[simp] theorem presentCode_now (c : Code) (s : State) :
    (presentCode c s).now = s.now := rfl
@[simp] theorem presentCode_stateTime (c : Code) (s : State) :
    (presentCode c s).stateTime = s.stateTime := rfl
@[simp] theorem presentCode_brightness (c : Code) (s : State) :
    (presentCode c s).brightness = s.brightness := rfl
@[simp] theorem presentCode_mphase (c : Code) (s : State) :
    (presentCode c s).mphase = s.mphase := rfl
@[simp] theorem presentCode_snapReset (c : Code) (s : State) :
    (presentCode c s).snapReset = s.snapReset := rfl
@[simp] theorem presentCode_snapEvt (c : Code) (s : State) :
    (presentCode c s).snapEvt = s.snapEvt := rfl
@[simp] theorem presentCode_snapNow (c : Code) (s : State) :
    (presentCode c s).snapNow = s.snapNow := rfl
@[simp] theorem presentCode_frame (c : Code) (s : State) :
    (presentCode c s).frame = s.frame := rfl
@[simp] theorem presentCode_link (c : Code) (s : State) :
    (presentCode c s).link = s.link := rfl
@[simp] theorem presentCode_pending (c : Code) (s : State) :
    (presentCode c s).pending = [] := rfl
@[simp] theorem presentCode_port (c : Code) (s : State) :
    (presentCode c s).port = .op c :: s.port := rfl
@[simp] theorem presentCode_draws (c : Code) (s : State) :
    (presentCode c s).draws = s.draws := rfl
@[simp] theorem presentCode_result (c : Code) (s : State) :
    (presentCode c s).result = s.result := rfl

/-! ### lineUp -/

@[simp] theorem lineUp_cfg (as : List Level) (s : State) :
    (lineUp as s).cfg = s.cfg := rfl
@[simp] theorem lineUp_score (as : List Level) (s : State) :
    (lineUp as s).score = s.score := rfl
@[simp] theorem lineUp_dur (as : List Level) (s : State) :
    (lineUp as s).dur = s.dur := rfl
@[simp] theorem lineUp_evt (as : List Level) (s : State) :
    (lineUp as s).evt = s.evt := rfl
@[simp] theorem lineUp_resetReq (as : List Level) (s : State) :
    (lineUp as s).resetReq = s.resetReq := rfl
@[simp] theorem lineUp_voided (as : List Level) (s : State) :
    (lineUp as s).voided = s.voided := rfl
@[simp] theorem lineUp_run (as : List Level) (s : State) :
    (lineUp as s).run = s.run := rfl
@[simp] theorem lineUp_now (as : List Level) (s : State) :
    (lineUp as s).now = s.now := rfl
@[simp] theorem lineUp_stateTime (as : List Level) (s : State) :
    (lineUp as s).stateTime = s.stateTime := rfl
@[simp] theorem lineUp_brightness (as : List Level) (s : State) :
    (lineUp as s).brightness = s.brightness := rfl
@[simp] theorem lineUp_mphase (as : List Level) (s : State) :
    (lineUp as s).mphase = s.mphase := rfl
@[simp] theorem lineUp_snapReset (as : List Level) (s : State) :
    (lineUp as s).snapReset = s.snapReset := rfl
@[simp] theorem lineUp_snapEvt (as : List Level) (s : State) :
    (lineUp as s).snapEvt = s.snapEvt := rfl
@[simp] theorem lineUp_snapNow (as : List Level) (s : State) :
    (lineUp as s).snapNow = s.snapNow := rfl
@[simp] theorem lineUp_frame (as : List Level) (s : State) :
    (lineUp as s).frame = s.frame := rfl
@[simp] theorem lineUp_pending (as : List Level) (s : State) :
    (lineUp as s).pending = s.pending := rfl
@[simp] theorem lineUp_port (as : List Level) (s : State) :
    (lineUp as s).port = s.port := rfl
@[simp] theorem lineUp_draws (as : List Level) (s : State) :
    (lineUp as s).draws = s.draws := rfl
@[simp] theorem lineUp_result (as : List Level) (s : State) :
    (lineUp as s).result = s.result := rfl
@[simp] theorem lineUp_link (as : List Level) (s : State) :
    (lineUp as s).link = { s.link with dioIn := as ++ s.link.dioIn } := rfl

/-! ### wake -/

@[simp] theorem wake_cfg (s : State) :
    (wake s).cfg = s.cfg := by unfold wake; split <;> simp_all
@[simp] theorem wake_score (s : State) :
    (wake s).score = s.score := by unfold wake; split <;> simp_all
@[simp] theorem wake_dur (s : State) :
    (wake s).dur = s.dur := by unfold wake; split <;> simp_all
@[simp] theorem wake_evt (s : State) :
    (wake s).evt = s.evt := by unfold wake; split <;> simp_all
@[simp] theorem wake_resetReq (s : State) :
    (wake s).resetReq = s.resetReq := by unfold wake; split <;> simp_all
@[simp] theorem wake_voided (s : State) :
    (wake s).voided = s.voided := by unfold wake; split <;> simp_all
@[simp] theorem wake_run (s : State) :
    (wake s).run = s.run := by unfold wake; split <;> simp_all
@[simp] theorem wake_now (s : State) :
    (wake s).now = s.now := by unfold wake; split <;> simp_all
@[simp] theorem wake_stateTime (s : State) :
    (wake s).stateTime = s.stateTime := by unfold wake; split <;> simp_all
@[simp] theorem wake_brightness (s : State) :
    (wake s).brightness = s.brightness := by unfold wake; split <;> simp_all
@[simp] theorem wake_mphase (s : State) :
    (wake s).mphase = if s.mphase = .wait then .poll else s.mphase := by unfold wake; split <;> simp_all
@[simp] theorem wake_snapReset (s : State) :
    (wake s).snapReset = s.snapReset := by unfold wake; split <;> simp_all
@[simp] theorem wake_snapEvt (s : State) :
    (wake s).snapEvt = s.snapEvt := by unfold wake; split <;> simp_all
@[simp] theorem wake_snapNow (s : State) :
    (wake s).snapNow = s.snapNow := by unfold wake; split <;> simp_all
@[simp] theorem wake_frame (s : State) :
    (wake s).frame = s.frame := by unfold wake; split <;> simp_all
@[simp] theorem wake_link (s : State) :
    (wake s).link = s.link := by unfold wake; split <;> simp_all
@[simp] theorem wake_pending (s : State) :
    (wake s).pending = s.pending := by unfold wake; split <;> simp_all
@[simp] theorem wake_port (s : State) :
    (wake s).port = s.port := by unfold wake; split <;> simp_all
@[simp] theorem wake_draws (s : State) :
    (wake s).draws = s.draws := by unfold wake; split <;> simp_all
@[simp] theorem wake_result (s : State) :
    (wake s).result = s.result := by unfold wake; split <;> simp_all

/-! ### latch -/

@[simp] theorem latch_cfg (b : Idx) (e : ButtonEvent) (s : State) :
    (latch b e s).cfg = s.cfg := by cases e <;> rfl
@[simp] theorem latch_score (b : Idx) (e : ButtonEvent) (s : State) :
    (latch b e s).score = s.score := by cases e <;> rfl
@[simp] theorem latch_dur (b : Idx) (e : ButtonEvent) (s : State) :
    (latch b e s).dur = s.dur := by cases e <;> rfl
@[simp] theorem latch_evt (b : Idx) (e : ButtonEvent) (s : State) :
    (latch b e s).evt = if e = .none then s.evt else s.evt.set b e := by cases e <;> rfl
@[simp] theorem latch_resetReq (b : Idx) (e : ButtonEvent) (s : State) :
    (latch b e s).resetReq = s.resetReq := by cases e <;> rfl
@[simp] theorem latch_voided (b : Idx) (e : ButtonEvent) (s : State) :
    (latch b e s).voided = s.voided := by cases e <;> rfl
@[simp] theorem latch_run (b : Idx) (e : ButtonEvent) (s : State) :
    (latch b e s).run = s.run := by cases e <;> rfl
@[simp] theorem latch_now (b : Idx) (e : ButtonEvent) (s : State) :
    (latch b e s).now = s.now := by cases e <;> rfl
@[simp] theorem latch_stateTime (b : Idx) (e : ButtonEvent) (s : State) :
    (latch b e s).stateTime = s.stateTime := by cases e <;> rfl
@[simp] theorem latch_brightness (b : Idx) (e : ButtonEvent) (s : State) :
    (latch b e s).brightness = s.brightness := by cases e <;> rfl
@[simp] theorem latch_mphase (b : Idx) (e : ButtonEvent) (s : State) :
    (latch b e s).mphase = s.mphase := by cases e <;> rfl
@[simp] theorem latch_snapReset (b : Idx) (e : ButtonEvent) (s : State) :
    (latch b e s).snapReset = s.snapReset := by cases e <;> rfl
@[simp] theorem latch_snapEvt (b : Idx) (e : ButtonEvent) (s : State) :
    (latch b e s).snapEvt = s.snapEvt := by cases e <;> rfl
@[simp] theorem latch_snapNow (b : Idx) (e : ButtonEvent) (s : State) :
    (latch b e s).snapNow = s.snapNow := by cases e <;> rfl
@[simp] theorem latch_frame (b : Idx) (e : ButtonEvent) (s : State) :
    (latch b e s).frame = s.frame := by cases e <;> rfl
@[simp] theorem latch_link (b : Idx) (e : ButtonEvent) (s : State) :
    (latch b e s).link = s.link := by cases e <;> rfl
@[simp] theorem latch_pending (b : Idx) (e : ButtonEvent) (s : State) :
    (latch b e s).pending = s.pending := by cases e <;> rfl
@[simp] theorem latch_port (b : Idx) (e : ButtonEvent) (s : State) :
    (latch b e s).port = s.port := by cases e <;> rfl
@[simp] theorem latch_draws (b : Idx) (e : ButtonEvent) (s : State) :
    (latch b e s).draws = s.draws := by cases e <;> rfl
@[simp] theorem latch_result (b : Idx) (e : ButtonEvent) (s : State) :
    (latch b e s).result = s.result := by cases e <;> rfl

/-! ### applyGesture -/

@[simp] theorem applyGesture_cfg (s : State) :
    (applyGesture s).cfg = s.cfg := by unfold applyGesture; split <;> simp_all
@[simp] theorem applyGesture_score (s : State) :
    (applyGesture s).score = s.score := by unfold applyGesture; split <;> simp_all
@[simp] theorem applyGesture_dur (s : State) :
    (applyGesture s).dur = s.dur := by unfold applyGesture; split <;> simp_all
@[simp] theorem applyGesture_evt (s : State) :
    (applyGesture s).evt = if gestureFires s then ⟨.none, .none⟩ else s.evt := by unfold applyGesture; split <;> simp_all
@[simp] theorem applyGesture_resetReq (s : State) :
    (applyGesture s).resetReq = (s.resetReq || gestureFires s) := by unfold applyGesture; split <;> simp_all
@[simp] theorem applyGesture_voided (s : State) :
    (applyGesture s).voided = if gestureFires s then ⟨true, true⟩ else s.voided := by unfold applyGesture; split <;> simp_all
@[simp] theorem applyGesture_run (s : State) :
    (applyGesture s).run = s.run := by unfold applyGesture; split <;> simp_all
@[simp] theorem applyGesture_now (s : State) :
    (applyGesture s).now = s.now := by unfold applyGesture; split <;> simp_all
@[simp] theorem applyGesture_stateTime (s : State) :
    (applyGesture s).stateTime = s.stateTime := by unfold applyGesture; split <;> simp_all
@[simp] theorem applyGesture_brightness (s : State) :
    (applyGesture s).brightness = s.brightness := by unfold applyGesture; split <;> simp_all
@[simp] theorem applyGesture_mphase (s : State) :
    (applyGesture s).mphase = s.mphase := by unfold applyGesture; split <;> simp_all
@[simp] theorem applyGesture_snapReset (s : State) :
    (applyGesture s).snapReset = s.snapReset := by unfold applyGesture; split <;> simp_all
@[simp] theorem applyGesture_snapEvt (s : State) :
    (applyGesture s).snapEvt = s.snapEvt := by unfold applyGesture; split <;> simp_all
@[simp] theorem applyGesture_snapNow (s : State) :
    (applyGesture s).snapNow = s.snapNow := by unfold applyGesture; split <;> simp_all
@[simp] theorem applyGesture_frame (s : State) :
    (applyGesture s).frame = s.frame := by unfold applyGesture; split <;> simp_all
@[simp] theorem applyGesture_link (s : State) :
    (applyGesture s).link = s.link := by unfold applyGesture; split <;> simp_all
@[simp] theorem applyGesture_pending (s : State) :
    (applyGesture s).pending = s.pending := by unfold applyGesture; split <;> simp_all
@[simp] theorem applyGesture_port (s : State) :
    (applyGesture s).port = s.port := by unfold applyGesture; split <;> simp_all
@[simp] theorem applyGesture_draws (s : State) :
    (applyGesture s).draws = s.draws := by unfold applyGesture; split <;> simp_all
@[simp] theorem applyGesture_result (s : State) :
    (applyGesture s).result = s.result := by unfold applyGesture; split <;> simp_all

/-! ### applyTimeout -/

@[simp] theorem applyTimeout_cfg (s : State) :
    (applyTimeout s).cfg = s.cfg := by unfold applyTimeout; split <;> simp_all
@[simp] theorem applyTimeout_score (s : State) :
    (applyTimeout s).score = s.score := by unfold applyTimeout; split <;> simp_all
@[simp] theorem applyTimeout_dur (s : State) :
    (applyTimeout s).dur = s.dur := by unfold applyTimeout; split <;> simp_all
@[simp] theorem applyTimeout_evt (s : State) :
    (applyTimeout s).evt = s.evt := by unfold applyTimeout; split <;> simp_all
@[simp] theorem applyTimeout_resetReq (s : State) :
    (applyTimeout s).resetReq = s.resetReq := by unfold applyTimeout; split <;> simp_all
@[simp] theorem applyTimeout_voided (s : State) :
    (applyTimeout s).voided = s.voided := by unfold applyTimeout; split <;> simp_all
@[simp] theorem applyTimeout_run (s : State) :
    (applyTimeout s).run = if timeoutDue s then .idle else s.run := by unfold applyTimeout; split <;> simp_all
@[simp] theorem applyTimeout_now (s : State) :
    (applyTimeout s).now = s.now := by unfold applyTimeout; split <;> simp_all
@[simp] theorem applyTimeout_stateTime (s : State) :
    (applyTimeout s).stateTime = s.stateTime := by unfold applyTimeout; split <;> simp_all
@[simp] theorem applyTimeout_brightness (s : State) :
    (applyTimeout s).brightness = s.brightness := by unfold applyTimeout; split <;> simp_all
@[simp] theorem applyTimeout_mphase (s : State) :
    (applyTimeout s).mphase = s.mphase := by unfold applyTimeout; split <;> simp_all
@[simp] theorem applyTimeout_snapReset (s : State) :
    (applyTimeout s).snapReset = s.snapReset := by unfold applyTimeout; split <;> simp_all
@[simp] theorem applyTimeout_snapEvt (s : State) :
    (applyTimeout s).snapEvt = s.snapEvt := by unfold applyTimeout; split <;> simp_all
@[simp] theorem applyTimeout_snapNow (s : State) :
    (applyTimeout s).snapNow = s.snapNow := by unfold applyTimeout; split <;> simp_all
@[simp] theorem applyTimeout_frame (s : State) :
    (applyTimeout s).frame = s.frame := by unfold applyTimeout; split <;> simp_all
@[simp] theorem applyTimeout_link (s : State) :
    (applyTimeout s).link = s.link := by unfold applyTimeout; split <;> simp_all
@[simp] theorem applyTimeout_pending (s : State) :
    (applyTimeout s).pending = s.pending := by unfold applyTimeout; split <;> simp_all
@[simp] theorem applyTimeout_port (s : State) :
    (applyTimeout s).port = s.port := by unfold applyTimeout; split <;> simp_all
@[simp] theorem applyTimeout_draws (s : State) :
    (applyTimeout s).draws = s.draws := by unfold applyTimeout; split <;> simp_all
@[simp] theorem applyTimeout_result (s : State) :
    (applyTimeout s).result = s.result := by unfold applyTimeout; split <;> simp_all

/-! ### sendPending -/

@[simp] theorem sendPending_cfg (s : State) :
    (sendPending s).cfg = s.cfg := by unfold sendPending; split <;> simp_all [transact]
@[simp] theorem sendPending_score (s : State) :
    (sendPending s).score = s.score := by unfold sendPending; split <;> simp_all [transact]
@[simp] theorem sendPending_dur (s : State) :
    (sendPending s).dur = s.dur := by unfold sendPending; split <;> simp_all [transact]
@[simp] theorem sendPending_evt (s : State) :
    (sendPending s).evt = s.evt := by unfold sendPending; split <;> simp_all [transact]
@[simp] theorem sendPending_resetReq (s : State) :
    (sendPending s).resetReq = s.resetReq := by unfold sendPending; split <;> simp_all [transact]
@[simp] theorem sendPending_voided (s : State) :
    (sendPending s).voided = s.voided := by unfold sendPending; split <;> simp_all [transact]
@[simp] theorem sendPending_run (s : State) :
    (sendPending s).run = s.run := by unfold sendPending; split <;> simp_all [transact]
@[simp] theorem sendPending_now (s : State) :
    (sendPending s).now = s.now := by unfold sendPending; split <;> simp_all [transact]
@[simp] theorem sendPending_stateTime (s : State) :
    (sendPending s).stateTime = s.stateTime := by unfold sendPending; split <;> simp_all [transact]
@[simp] theorem sendPending_brightness (s : State) :
    (sendPending s).brightness = s.brightness := by unfold sendPending; split <;> simp_all [transact]
@[simp] theorem sendPending_mphase (s : State) :
    (sendPending s).mphase = s.mphase := by unfold sendPending; split <;> simp_all [transact]
@[simp] theorem sendPending_snapReset (s : State) :
    (sendPending s).snapReset = s.snapReset := by unfold sendPending; split <;> simp_all [transact]
@[simp] theorem sendPending_snapEvt (s : State) :
    (sendPending s).snapEvt = s.snapEvt := by unfold sendPending; split <;> simp_all [transact]
@[simp] theorem sendPending_snapNow (s : State) :
    (sendPending s).snapNow = s.snapNow := by unfold sendPending; split <;> simp_all [transact]
@[simp] theorem sendPending_frame (s : State) :
    (sendPending s).frame = s.frame := by unfold sendPending; split <;> simp_all [transact]
@[simp] theorem sendPending_pending (s : State) :
    (sendPending s).pending = s.pending.tail := by unfold sendPending; split <;> simp_all [transact]
@[simp] theorem sendPending_port (s : State) :
    (sendPending s).port = s.port := by unfold sendPending; split <;> simp_all [transact]
@[simp] theorem sendPending_draws (s : State) :
    (sendPending s).draws = s.draws := by unfold sendPending; split <;> simp_all [transact]
@[simp] theorem sendPending_result (s : State) :
    (sendPending s).result = s.result := by unfold sendPending; split <;> simp_all [transact]

/-! ### startFrame -/

@[simp] theorem startFrame_cfg (p : Byte) (d : List Byte) (s : State) :
    (startFrame p d s).cfg = s.cfg := by simp [startFrame]
@[simp] theorem startFrame_score (p : Byte) (d : List Byte) (s : State) :
    (startFrame p d s).score = s.score := by simp [startFrame]
@[simp] theorem startFrame_dur (p : Byte) (d : List Byte) (s : State) :
    (startFrame p d s).dur = s.dur := by simp [startFrame]
@[simp] theorem startFrame_evt (p : Byte) (d : List Byte) (s : State) :
    (startFrame p d s).evt = s.evt := by simp [startFrame]
@[simp] theorem startFrame_resetReq (p : Byte) (d : List Byte) (s : State) :
    (startFrame p d s).resetReq = s.resetReq := by simp [startFrame]
@[simp] theorem startFrame_voided (p : Byte) (d : List Byte) (s : State) :
    (startFrame p d s).voided = s.voided := by simp [startFrame]
@[simp] theorem startFrame_run (p : Byte) (d : List Byte) (s : State) :
    (startFrame p d s).run = s.run := by simp [startFrame]
@[simp] theorem startFrame_now (p : Byte) (d : List Byte) (s : State) :
    (startFrame p d s).now = s.now := by simp [startFrame]
@[simp] theorem startFrame_stateTime (p : Byte) (d : List Byte) (s : State) :
    (startFrame p d s).stateTime = s.stateTime := by simp [startFrame]
@[simp] theorem startFrame_brightness (p : Byte) (d : List Byte) (s : State) :
    (startFrame p d s).brightness = s.brightness := by simp [startFrame]
@[simp] theorem startFrame_mphase (p : Byte) (d : List Byte) (s : State) :
    (startFrame p d s).mphase = s.mphase := by simp [startFrame]
@[simp] theorem startFrame_snapReset (p : Byte) (d : List Byte) (s : State) :
    (startFrame p d s).snapReset = s.snapReset := by simp [startFrame]
@[simp] theorem startFrame_snapEvt (p : Byte) (d : List Byte) (s : State) :
    (startFrame p d s).snapEvt = s.snapEvt := by simp [startFrame]
@[simp] theorem startFrame_snapNow (p : Byte) (d : List Byte) (s : State) :
    (startFrame p d s).snapNow = s.snapNow := by simp [startFrame]
@[simp] theorem startFrame_frame (p : Byte) (d : List Byte) (s : State) :
    (startFrame p d s).frame = s.frame := by simp [startFrame]
@[simp] theorem startFrame_pending (p : Byte) (d : List Byte) (s : State) :
    (startFrame p d s).pending = (s.pending ++ [Pending.data, Pending.addr p d, Pending.ctrl]).tail := by simp [startFrame]
@[simp] theorem startFrame_port (p : Byte) (d : List Byte) (s : State) :
    (startFrame p d s).port = s.port := by simp [startFrame]
@[simp] theorem startFrame_draws (p : Byte) (d : List Byte) (s : State) :
    (startFrame p d s).draws = s.draws := by simp [startFrame]
@[simp] theorem startFrame_result (p : Byte) (d : List Byte) (s : State) :
    (startFrame p d s).result = s.result := by simp [startFrame]

end Sys2Proof.Machine
end

