-- ==== Sys2Proof/Laws/Frames.lean ====
section
/-! SUPPORT. What each shared operation over the state can change, one lemma per operation. -/

namespace Sys2Proof.Machine

/-- The wake writes `mphase` only (42_tick_and_buttons.md R193). -/
theorem wake_changes (s : State) : wake s = { s with mphase := (wake s).mphase } := by
  unfold wake; split <;> rfl

/-- `mphase` after the wake. -/
theorem wake_phase (s : State) :
    (wake s).mphase = if s.mphase = .wait then .poll else s.mphase := by
  unfold wake; split <;> simp_all

/-- The latch write touches `evt` only (R203). -/
theorem latch_changes (b : Idx) (e : ButtonEvent) (s : State) :
    latch b e s = { s with evt := (latch b e s).evt } := by cases e <;> rfl

/-- The latch after the latch write (R203). -/
theorem latch_evt_eq (b : Idx) (e : ButtonEvent) (s : State) :
    (latch b e s).evt = if e = .none then s.evt else s.evt.set b e := by cases e <;> rfl

/-- The gesture writes `resetReq`, `evt` and `void` only (R202). -/
theorem applyGesture_changes (s : State) :
    applyGesture s = { s with
      resetReq := (applyGesture s).resetReq
      evt := (applyGesture s).evt
      voided := (applyGesture s).voided } := by
  unfold applyGesture; split <;> rfl

/-- Handling an event writes `score`, `run` and `stateTime` only (43_scoreboard.md R234 to R239). -/
theorem handleSnap_changes (j : Idx) (s : State) :
    handleSnap j s = { s with
      score := (handleSnap j s).score
      run := (handleSnap j s).run
      stateTime := (handleSnap j s).stateTime } := by
  unfold handleSnap handleEvent
  split
  · rfl
  all_goals split <;> rfl

/-- An edit that completes edits the active side (43_scoreboard.md R235 to R239). -/
theorem editOnly_next {j : Idx} {e : ButtonEvent} {s t : State} (h : editOnly j e s = .next t) :
    ∃ sd, s.run.side = some sd ∧ t = editActive j e sd s := by
  unfold editOnly at h
  split at h <;> cases h
  exact ⟨_, ‹_›, rfl⟩

/-- A LongPress edit that completes runs under the Edge policy and edits the active side (R237, R238). -/
theorem longPressEdit_next {j : Idx} {s t : State} (h : longPressEdit j s = .next t) :
    s.cfg.policy = .edge ∧ ∃ sd, s.run.side = some sd ∧ t = editActive j .longPress sd s := by
  unfold longPressEdit at h
  split at h
  · exact ⟨‹_›, editOnly_next h⟩
  · cases h

/-- The timeout writes `run` only (43_scoreboard.md R240). -/
theorem applyTimeout_changes (s : State) :
    applyTimeout s = { s with run := (applyTimeout s).run } := by
  unfold applyTimeout; split <;> rfl

/-- UPDATE's body writes `score`, `run` and `stateTime` only (43_scoreboard.md R232). -/
theorem updateBody_changes (s : State) :
    updateBody s = { s with
      score := (updateBody s).score
      run := (updateBody s).run
      stateTime := (updateBody s).stateTime } := by
  have hs : ∀ (j : Idx) (u : State), ∃ a b c,
      handleSnap j u = { u with score := a, run := b, stateTime := c } :=
    fun j u => ⟨_, _, _, handleSnap_changes j u⟩
  have h1 : ∃ a b c, (if s.snapReset then applyReset s else s)
      = { s with score := a, run := b, stateTime := c } := by split <;> exact ⟨_, _, _, rfl⟩
  have h : ∃ a b c, updateBody s = { s with score := a, run := b, stateTime := c } := by
    obtain ⟨a, b, c, h1⟩ := h1
    obtain ⟨a0, b0, c0, h2⟩ := hs .zero (if s.snapReset then applyReset s else s)
    obtain ⟨a1, b1, c1, h3⟩ := hs .one (handleSnap .zero (if s.snapReset then applyReset s else s))
    have h4 := applyTimeout_changes
      (handleSnap .one (handleSnap .zero (if s.snapReset then applyReset s else s)))
    refine ⟨a1, (updateBody s).run, c1, ?_⟩
    rw [h3, h2, h1] at h4
    unfold updateBody
    simp only
    rw [h3, h2, h1, h4]
  obtain ⟨a, b, c, h⟩ := h
  rw [h]

/-- A driver operation, when none is in progress, sends the data command and queues the rest (40_wire_protocol.md
R137, R138). -/
theorem startFrame_eq (p : Byte) (d : List Byte) {s : State} (h : s.pending = []) :
    startFrame p d s =
      { s with link := s.link.transact [cmdDataAutoincByte], pending := [.addr p d, .ctrl] } := by
  simp [startFrame, sendPending, h, transact, pendingBytes]

/-- The state after the next transaction of a driver operation. -/
theorem sendPending_cons {p : Pending} {ps : List Pending} {s : State} (h : s.pending = p :: ps) :
    sendPending s =
      { s with pending := ps, link := s.link.transact (pendingBytes s.brightness p) } := by
  simp [sendPending, h, transact]

/-- A main-context step completes in its phase. -/
theorem inPhase_pos {p : Phase} {s t : State} (h : s.mphase = p) : inPhase p s t = .next t := if_pos h

/-- A main-context step has no step in another phase (log entry 13). -/
theorem inPhase_neg {p : Phase} {s t : State} (h : s.mphase ≠ p) :
    inPhase p s t = .refused .notEnabled := if_neg h

/-- A main-context step that answers a next state was in its phase. -/
theorem inPhase_next {p : Phase} {s t u : State} (h : inPhase p s t = .next u) :
    s.mphase = p ∧ u = t := by
  unfold inPhase at h
  split at h
  · exact ⟨‹_›, by simpa [eq_comm] using h⟩
  · cases h

end Sys2Proof.Machine
end

