-- ==== Sys2Proof/Laws/PerInstr.lean ====
section
/-! SUPPORT. Laws per instruction. EncodeShape: a well-formed operation has at least one byte in its encoding, and a
command-byte or segment-byte row is encoded as the byte it sends (30_encoding.md R93 to R99). -/

namespace Sys2Proof.Laws

/-- The law of one instruction. -/
def EncodeShape.Statement (i : Instr) : Prop :=
  i.wf = true → (encode i).bytes ≠ [] ∧ ∀ b, i.rowByte = some b → (encode i).bytes = [b]

theorem EncodeShape.start : EncodeShape.Statement .start :=
  fun _ => ⟨by simp [encode, startWaveform], fun _ h => nomatch h⟩
theorem EncodeShape.stop : EncodeShape.Statement .stop :=
  fun _ => ⟨by simp [encode, stopWaveform], fun _ h => nomatch h⟩
theorem EncodeShape.wrbyte (v : Byte) (k : Level) : EncodeShape.Statement (.wrbyte v k) :=
  fun _ => ⟨by simp [encode], fun _ h => nomatch h⟩
theorem EncodeShape.txn (bytes : List Byte) : EncodeShape.Statement (.txn bytes) :=
  fun h => ⟨by cases bytes <;> simp_all [Instr.wf, encode], fun _ h => nomatch h⟩
theorem EncodeShape.sendSegments (p : Byte) (d : List Byte) : EncodeShape.Statement (.sendSegments p d) :=
  fun _ => ⟨by simp [encode], fun _ h => nomatch h⟩
theorem EncodeShape.cmdDataAutoinc : EncodeShape.Statement .cmdDataAutoinc :=
  fun _ => ⟨by simp [encode], fun _ h => by cases h; rfl⟩
theorem EncodeShape.cmdAddr (p : BitVec 2) : EncodeShape.Statement (.cmdAddr p) :=
  fun _ => ⟨by simp [encode], fun _ h => by cases h; rfl⟩
theorem EncodeShape.cmdCtrl (l : BitVec 3) : EncodeShape.Statement (.cmdCtrl l) :=
  fun _ => ⟨by simp [encode], fun _ h => by cases h; rfl⟩
theorem EncodeShape.segmentByte (b : Byte) : EncodeShape.Statement (.segmentByte b) :=
  fun _ => ⟨by simp [encode], fun _ h => by cases h; rfl⟩
theorem EncodeShape.encodeDigit (d : Byte) : EncodeShape.Statement (.encodeDigit d) :=
  fun _ => ⟨by simp [encode], fun _ h => nomatch h⟩
theorem EncodeShape.glyph0 : EncodeShape.Statement .glyph0 :=
  fun _ => ⟨by simp [encode], fun _ h => by cases h; rfl⟩
theorem EncodeShape.glyph1 : EncodeShape.Statement .glyph1 :=
  fun _ => ⟨by simp [encode], fun _ h => by cases h; rfl⟩
theorem EncodeShape.glyph2 : EncodeShape.Statement .glyph2 :=
  fun _ => ⟨by simp [encode], fun _ h => by cases h; rfl⟩
theorem EncodeShape.glyph3 : EncodeShape.Statement .glyph3 :=
  fun _ => ⟨by simp [encode], fun _ h => by cases h; rfl⟩
theorem EncodeShape.glyph4 : EncodeShape.Statement .glyph4 :=
  fun _ => ⟨by simp [encode], fun _ h => by cases h; rfl⟩
theorem EncodeShape.glyph5 : EncodeShape.Statement .glyph5 :=
  fun _ => ⟨by simp [encode], fun _ h => by cases h; rfl⟩
theorem EncodeShape.glyph6 : EncodeShape.Statement .glyph6 :=
  fun _ => ⟨by simp [encode], fun _ h => by cases h; rfl⟩
theorem EncodeShape.glyph7 : EncodeShape.Statement .glyph7 :=
  fun _ => ⟨by simp [encode], fun _ h => by cases h; rfl⟩
theorem EncodeShape.glyph8 : EncodeShape.Statement .glyph8 :=
  fun _ => ⟨by simp [encode], fun _ h => by cases h; rfl⟩
theorem EncodeShape.glyph9 : EncodeShape.Statement .glyph9 :=
  fun _ => ⟨by simp [encode], fun _ h => by cases h; rfl⟩
theorem EncodeShape.glyphMinus : EncodeShape.Statement .glyphMinus :=
  fun _ => ⟨by simp [encode], fun _ h => by cases h; rfl⟩
theorem EncodeShape.glyphBlank : EncodeShape.Statement .glyphBlank :=
  fun _ => ⟨by simp [encode], fun _ h => by cases h; rfl⟩
theorem EncodeShape.dotFlag (x : BitVec 7) : EncodeShape.Statement (.dotFlag x) :=
  fun _ => ⟨by simp [encode], fun _ h => by cases h; rfl⟩
theorem EncodeShape.overflowFrame : EncodeShape.Statement .overflowFrame :=
  fun _ => ⟨by simp [encode, overflowPattern], fun _ h => nomatch h⟩
theorem EncodeShape.setBrightness (level : Byte) : EncodeShape.Statement (.setBrightness level) :=
  fun _ => ⟨by simp [encode], fun _ h => nomatch h⟩
theorem EncodeShape.displayRaw (f : Frame) : EncodeShape.Statement (.displayRaw f) :=
  fun _ => ⟨by simp [encode], fun _ h => nomatch h⟩
theorem EncodeShape.displayAt (p b : Byte) : EncodeShape.Statement (.displayAt p b) :=
  fun _ => ⟨by simp [encode], fun _ h => nomatch h⟩
theorem EncodeShape.displayNumber (v : BitVec 16) (z : Bool) : EncodeShape.Statement (.displayNumber v z) :=
  fun _ => ⟨by simp [encode], fun _ h => nomatch h⟩
theorem EncodeShape.clear : EncodeShape.Statement .clear :=
  fun _ => ⟨by simp [encode], fun _ h => nomatch h⟩
theorem EncodeShape.reservedSelect5 : EncodeShape.Statement .reservedSelect5 :=
  fun _ => ⟨by simp [encode], fun _ h => nomatch h⟩
theorem EncodeShape.reservedSelect6 : EncodeShape.Statement .reservedSelect6 :=
  fun _ => ⟨by simp [encode], fun _ h => nomatch h⟩
theorem EncodeShape.reservedSelect7 : EncodeShape.Statement .reservedSelect7 :=
  fun _ => ⟨by simp [encode], fun _ h => nomatch h⟩
theorem EncodeShape.tick (b0 b1 : Level) : EncodeShape.Statement (.tick b0 b1) :=
  fun _ => ⟨by simp [encode], fun _ h => nomatch h⟩
theorem EncodeShape.buttonEdgePressed (b : Idx) : EncodeShape.Statement (.buttonEdgePressed b) :=
  fun _ => ⟨by simp [encode], fun _ h => nomatch h⟩
theorem EncodeShape.buttonEdgeReleased (b : Idx) : EncodeShape.Statement (.buttonEdgeReleased b) :=
  fun _ => ⟨by simp [encode], fun _ h => nomatch h⟩
theorem EncodeShape.buttonHoldPressed (b : Idx) : EncodeShape.Statement (.buttonHoldPressed b) :=
  fun _ => ⟨by simp [encode], fun _ h => nomatch h⟩
theorem EncodeShape.buttonHoldReleased (b : Idx) : EncodeShape.Statement (.buttonHoldReleased b) :=
  fun _ => ⟨by simp [encode], fun _ h => nomatch h⟩
theorem EncodeShape.gesture : EncodeShape.Statement .gesture :=
  fun _ => ⟨by simp [encode], fun _ h => nomatch h⟩
theorem EncodeShape.poll : EncodeShape.Statement .poll :=
  fun _ => ⟨by simp [encode], fun _ h => nomatch h⟩
theorem EncodeShape.update : EncodeShape.Statement .update :=
  fun _ => ⟨by simp [encode], fun _ h => nomatch h⟩
theorem EncodeShape.render : EncodeShape.Statement .render :=
  fun _ => ⟨by simp [encode], fun _ h => nomatch h⟩
theorem EncodeShape.tx1 : EncodeShape.Statement .tx1 :=
  fun _ => ⟨by simp [encode], fun _ h => nomatch h⟩
theorem EncodeShape.tx2 : EncodeShape.Statement .tx2 :=
  fun _ => ⟨by simp [encode], fun _ h => nomatch h⟩
theorem EncodeShape.tx3 : EncodeShape.Statement .tx3 :=
  fun _ => ⟨by simp [encode], fun _ h => nomatch h⟩
theorem EncodeShape.wait : EncodeShape.Statement .wait :=
  fun _ => ⟨by simp [encode], fun _ h => nomatch h⟩
theorem EncodeShape.applyReset : EncodeShape.Statement .applyReset :=
  fun _ => ⟨by simp [encode], fun _ h => nomatch h⟩
theorem EncodeShape.activate (j : Idx) : EncodeShape.Statement (.activate j) :=
  fun _ => ⟨by simp [encode], fun _ h => nomatch h⟩
theorem EncodeShape.click0Dec : EncodeShape.Statement .click0Dec :=
  fun _ => ⟨by simp [encode], fun _ h => nomatch h⟩
theorem EncodeShape.click1Inc : EncodeShape.Statement .click1Inc :=
  fun _ => ⟨by simp [encode], fun _ h => nomatch h⟩
theorem EncodeShape.longPress0Floor : EncodeShape.Statement .longPress0Floor :=
  fun _ => ⟨by simp [encode], fun _ h => nomatch h⟩
theorem EncodeShape.longPress1Snap : EncodeShape.Statement .longPress1Snap :=
  fun _ => ⟨by simp [encode], fun _ h => nomatch h⟩
theorem EncodeShape.timeout : EncodeShape.Statement .timeout :=
  fun _ => ⟨by simp [encode], fun _ h => nomatch h⟩
theorem EncodeShape.eventNone : EncodeShape.Statement .eventNone :=
  fun _ => ⟨by simp [encode], fun _ h => nomatch h⟩
theorem EncodeShape.eventClick : EncodeShape.Statement .eventClick :=
  fun _ => ⟨by simp [encode], fun _ h => nomatch h⟩
theorem EncodeShape.eventLongPress : EncodeShape.Statement .eventLongPress :=
  fun _ => ⟨by simp [encode], fun _ h => nomatch h⟩
theorem EncodeShape.runIdle : EncodeShape.Statement .runIdle :=
  fun _ => ⟨by simp [encode], fun _ h => nomatch h⟩
theorem EncodeShape.runActiveLeft : EncodeShape.Statement .runActiveLeft :=
  fun _ => ⟨by simp [encode], fun _ h => nomatch h⟩
theorem EncodeShape.runActiveRight : EncodeShape.Statement .runActiveRight :=
  fun _ => ⟨by simp [encode], fun _ h => nomatch h⟩

end Sys2Proof.Laws
end

