-- ==== Sys2Proof/Laws/Step.lean ====
section
/-! SUPPORT. What one step can do, said once; invariants of the machine are derived from it. -/

namespace Sys2Proof.Machine

/-- The main context's next step is the step of its phase, with no transaction pending, or the next transaction. -/
theorem mainAction_cases (u : State) :
    (u.pending = [] ∧ mainAction u = .run (phaseInstr u.mphase) u) ∨ (u.pending ≠ [] ∧ mainAction u = .send u) := by
  unfold mainAction
  by_cases hp : u.pending = []
  · exact .inl ⟨hp, by simp [hp]⟩
  · exact .inr ⟨hp, by simp [hp]⟩

/-- An action runs an operation, or sends the next transaction, from the state with the script, the schedule's counter and
the levels lined up advanced; a main-context operation runs with no transaction pending. -/
def Action.From (s : State) (a : Action) : Prop :=
  (∃ u : State, u = { s with
      port := u.port
      draws := u.draws
      link := { s.link with dioIn := u.link.dioIn } } ∧
    ((∃ i, a = .run i u ∧ (u.pending = [] ∨ i.tickContext = true)) ∨ (u.pending ≠ [] ∧ a = .send u)))
  ∨ ∃ r, a = .refuse r

theorem mainAction_from {s : State} (u : State)
    (hu : u = { s with port := u.port, draws := u.draws, link := { s.link with dioIn := u.link.dioIn } }) :
    (mainAction u).From s := by
  rcases mainAction_cases u with ⟨hp, e⟩ | ⟨hp, e⟩
  · exact .inl ⟨u, hu, .inl ⟨_, e, .inl hp⟩⟩
  · exact .inl ⟨u, hu, .inr ⟨hp, e⟩⟩

theorem freeAction_from (s : State) : (freeAction { s with port := [] }).From s := by
  unfold freeAction
  split
  · exact .inl ⟨_, rfl, .inl ⟨_, rfl, .inr rfl⟩⟩
  · exact mainAction_from _ rfl

theorem tickAction_from (b0 b1 : Level) (here rest : List Stim) (s : State) :
    (tickAction b0 b1 here rest s).From s := by
  unfold tickAction
  split
  · exact .inl ⟨_, rfl, .inl ⟨_, rfl, .inr rfl⟩⟩
  · exact .inl ⟨_, rfl, .inr ⟨by simp_all, rfl⟩⟩

theorem scriptAction_from (c : Code) (rest : List Stim) (s : State) : (scriptAction c rest s).From s := by
  unfold scriptAction
  split
  · exact .inr ⟨_, rfl⟩
  · split
    · exact .inl ⟨_, rfl, .inl ⟨_, rfl, by simp_all⟩⟩
    · exact .inl ⟨_, rfl, .inr ⟨by simp_all, rfl⟩⟩

/-- What the next step under a script is. -/
theorem portAction_from (s : State) (l : List Stim) : (portAction s l).From s := by
  induction l with
  | nil => exact freeAction_from s
  | cons st rest ih =>
    cases st with
    | op c => exact scriptAction_from c rest s
    | main => exact mainAction_from _ rfl
    | tick b0 b1 n =>
      cases n with
      | zero => exact ih
      | succ n => exact tickAction_from _ _ _ _ s
    | mainToWait ack =>
      unfold portAction
      split
      · exact ih
      · exact mainAction_from _ rfl
    | loop b0 b1 n =>
      cases n with
      | zero => exact ih
      | succ n => exact tickAction_from _ _ _ _ s

/-- A step that answers a next state ran an operation, or the next transaction of a driver operation, from the state
with the script, the schedule's counter and the levels lined up advanced; a main-context operation ran with no
transaction pending. -/
theorem step_cases {s t : State} (h : step s = .next t) :
    s.cfg.ok = true ∧ ∃ u : State, u = { s with
        port := u.port
        draws := u.draws
        link := { s.link with dioIn := u.link.dioIn } } ∧
      ((∃ i, exec i u = .next t ∧ (u.pending = [] ∨ i.tickContext = true)) ∨
        (u.pending ≠ [] ∧ t = sendPending u)) := by
  unfold step nextAction at h
  by_cases hok : s.cfg.ok = true
  · refine ⟨hok, ?_⟩
    rw [if_pos hok] at h
    rcases portAction_from s s.port with ⟨u, hu, ⟨i, e, hi⟩ | ⟨hp, e⟩⟩ | ⟨r, e⟩
    · rw [e] at h; exact ⟨u, hu, .inl ⟨i, h, hi⟩⟩
    · rw [e] at h; cases h; exact ⟨u, hu, .inr ⟨hp, rfl⟩⟩
    · rw [e] at h; cases h
  · rw [if_neg hok] at h; cases h

/-- What is done does not depend on the statements already over. -/
theorem portAction_port (s : State) (p l : List Stim) : portAction { s with port := p } l = portAction s l := by
  induction l with
  | nil => rfl
  | cons st rest ih =>
    cases st with
    | op c => rfl
    | main => rfl
    | tick b0 b1 n =>
      cases n with
      | zero => exact ih
      | succ n => rfl
    | mainToWait ack => unfold portAction; rw [ih]; rfl
    | loop b0 b1 n =>
      cases n with
      | zero => exact ih
      | succ n => rfl

/-! ### The script, statement by statement (30_encoding.md R108) -/

@[simp] theorem portAction_nil (s : State) : portAction s [] = freeAction { s with port := [] } := rfl
@[simp] theorem portAction_op (s : State) (c : Code) (rest : List Stim) :
    portAction s (.op c :: rest) = scriptAction c rest s := rfl
@[simp] theorem portAction_main (s : State) (rest : List Stim) :
    portAction s (.main :: rest) = mainAction { s with port := rest } := rfl
@[simp] theorem portAction_tick_zero (s : State) (b0 b1 : Level) (rest : List Stim) :
    portAction s (.tick b0 b1 0 :: rest) = portAction s rest := rfl
@[simp] theorem portAction_tick_succ (s : State) (b0 b1 : Level) (n : Nat) (rest : List Stim) :
    portAction s (.tick b0 b1 (n + 1) :: rest)
      = tickAction b0 b1 (.tick b0 b1 (n + 1) :: rest) (.tick b0 b1 n :: rest) s := rfl
@[simp] theorem portAction_mainToWait (s : State) (ack : List Level) (rest : List Stim) :
    portAction s (.mainToWait ack :: rest)
      = if mainWaits s then portAction s rest else mainToWaitAction ack rest s := rfl
@[simp] theorem portAction_loop_zero (s : State) (b0 b1 : Level) (rest : List Stim) :
    portAction s (.loop b0 b1 0 :: rest) = portAction s rest := rfl
@[simp] theorem portAction_loop_succ (s : State) (b0 b1 : Level) (n : Nat) (rest : List Stim) :
    portAction s (.loop b0 b1 (n + 1) :: rest)
      = tickAction b0 b1 (.loop b0 b1 (n + 1) :: rest) (.mainToWait [] :: .loop b0 b1 n :: rest) s := rfl

/-- The block by itself (20_memory.md R75). -/
theorem nextAction_free {s : State} (hok : s.cfg.ok = true) (hp : s.port = []) : nextAction s = freeAction s := by
  have hs : ({ s with port := [] } : State) = s := by rw [← hp]
  rw [nextAction, if_pos hok, hp, portAction_nil, hs]

theorem nextAction_script {s : State} {st : Stim} {rest : List Stim} (hok : s.cfg.ok = true)
    (hp : s.port = st :: rest) : nextAction s = portAction s (st :: rest) := by
  rw [nextAction, if_pos hok, hp]

theorem step_run {s t : State} {i : Instr} (h : nextAction s = .run i t) : step s = exec i t := by
  simp [step, h]

theorem step_send {s t : State} (h : nextAction s = .send t) : step s = .next (sendPending t) := by
  simp [step, h]

theorem mainAcks_length (n : Nat) (ack : List Level) : (mainAcks n ack).length = n := by
  simp [mainAcks]

end Sys2Proof.Machine
end

