-- ==== Sys2Proof/Tests/Slice0.lean ====
section
/-! SUPPORT. Tests: the well-formedness smoke, words written out from the spec's encodings, single steps with the values
of spec/95_test_vectors.md, and one witness for the hypotheses of each obligation. -/

open Sys2Proof Sys2Proof.Machine

namespace Sys2Proof.Tests

set_option maxRecDepth 8000

/-- Reset, with sixteen acknowledgments lined up. -/
def base : State :=
  { State.reset with link := { State.reset.link with dioIn := List.replicate 16 .low } }

/-- The same machine under the Hold policy. -/
def baseHold : State := { base with cfg := { Config.default with policy := .hold } }

/-- An active left side with scores l and r, stateTime st and the snapshot's time now. -/
def active (run : RunState) (l r : Fin 100) (st now : Nat) : State :=
  { base with run := run, score := ⟨l, r⟩, stateTime := st, snapNow := now, mphase := .update }

/-- The operation answers a next state of which p holds. -/
def after (i : Instr) (s : State) (p : State → Bool) : Bool :=
  match exec i s with
  | .next t => p t
  | .fault _ => false
  | .refused _ => false

/-- The step answers a next state of which p holds. -/
def afterStep (s : State) (p : State → Bool) : Bool :=
  match step s with
  | .next t => p t
  | .fault _ => false
  | .refused _ => false

/-- The operation is refused with this refusal. -/
def refuses (i : Instr) (s : State) (r : Refusal) : Bool :=
  match exec i s with
  | .next _ => false
  | .fault _ => false
  | .refused q => decide (q = r)

/-! ### WellFormed: each check with an ill-formed term it refuses, and the nearest well-formed one -/

theorem test_wf_txn : Instr.wf (.txn []) = false ∧ Instr.wf (.txn [0x40]) = true := by decide
theorem test_wf_sendSegments :
    Instr.wf (.sendSegments 0 []) = false ∧ Instr.wf (.sendSegments 3 [0, 0]) = false
      ∧ Instr.wf (.sendSegments 3 [0]) = true ∧ Instr.wf (.sendSegments 0 [0, 0, 0, 0]) = true := by decide
theorem test_wf_segmentByte :
    Instr.wf (.segmentByte 0x40) = false ∧ Instr.wf (.segmentByte 0x81) = false
      ∧ Instr.wf (.segmentByte 0x01) = true := by decide
theorem test_wf_setBrightness :
    Instr.wf (.setBrightness 8) = false ∧ Instr.wf (.setBrightness 7) = true := by decide
theorem test_wf_displayAt :
    Instr.wf (.displayAt 4 0) = false ∧ Instr.wf (.displayAt 3 0) = true := by decide

/-! ### Words written out from 30_encoding.md -/

/-- R91: START `11 -> 10 -> 00`, STOP `10 -> 00 -> 00 -> 10 -> 11`, and neither for any other waveform. -/
theorem test_decode_waveform :
    decode ⟨.waveform, [0b11, 0b10, 0b00]⟩ = .ok .start
      ∧ decode ⟨.waveform, [0b10, 0b00, 0b00, 0b10, 0b11]⟩ = .ok .stop
      ∧ decode ⟨.waveform, [0b11, 0b01, 0b00]⟩ = .error .noSuchCode := by decide
/-- R90: abcdefghK. -/
theorem test_decode_byte_slot :
    decode ⟨.byteSlot, [0b01000000, 0b0]⟩ = .ok (.wrbyte 0x40 .low)
      ∧ decode ⟨.byteSlot, [0b10001111, 0b1]⟩ = .ok (.wrbyte 0x8F .high)
      ∧ decode ⟨.byteSlot, [0b10001111, 0b10]⟩ = .error .operandRange := by decide
/-- R91, R92. -/
theorem test_decode_transaction_and_frame :
    decode ⟨.transaction, [0b11000010, 0b01101101]⟩ = .ok (.txn [0xC2, 0x6D])
      ∧ decode ⟨.transaction, []⟩ = .error .wrongLength
      ∧ decode ⟨.frame, [2, 0b01101101]⟩ = .ok (.sendSegments 2 [0x6D])
      ∧ decode ⟨.frame, []⟩ = .error .wrongLength := by decide
/-- R93 to R95. -/
theorem test_decode_commands :
    decode ⟨.command, [0b01000000]⟩ = .ok .cmdDataAutoinc
      ∧ decode ⟨.command, [0b11000000]⟩ = .ok (.cmdAddr 0)
      ∧ decode ⟨.command, [0b11000011]⟩ = .ok (.cmdAddr 3)
      ∧ decode ⟨.command, [0b10001000]⟩ = .ok (.cmdCtrl 0)
      ∧ decode ⟨.command, [0b10001111]⟩ = .ok (.cmdCtrl 7)
      ∧ decode ⟨.command, [0b11000100]⟩ = .error .noSuchCode
      ∧ decode ⟨.command, [0b10000111]⟩ = .error .noSuchCode := by decide
/-- R98, R99: the glyph bits, segments g f e d c b a from bit 6 down. -/
theorem test_decode_glyphs :
    decode ⟨.segment, [0b00111111]⟩ = .ok .glyph0 ∧ decode ⟨.segment, [0b00000110]⟩ = .ok .glyph1
      ∧ decode ⟨.segment, [0b01011011]⟩ = .ok .glyph2 ∧ decode ⟨.segment, [0b01001111]⟩ = .ok .glyph3
      ∧ decode ⟨.segment, [0b01100110]⟩ = .ok .glyph4 ∧ decode ⟨.segment, [0b01101101]⟩ = .ok .glyph5
      ∧ decode ⟨.segment, [0b01111101]⟩ = .ok .glyph6 ∧ decode ⟨.segment, [0b00000111]⟩ = .ok .glyph7
      ∧ decode ⟨.segment, [0b01111111]⟩ = .ok .glyph8 ∧ decode ⟨.segment, [0b01101111]⟩ = .ok .glyph9
      ∧ decode ⟨.segment, [0b01000000]⟩ = .ok .glyphMinus
      ∧ decode ⟨.segment, [0b00000000]⟩ = .ok .glyphBlank := by decide
/-- R96, R97; 41_display_driver.md R160, R161; R99. -/
theorem test_decode_segments_digit_overflow :
    decode ⟨.segment, [0b00000001]⟩ = .ok (.segmentByte 0x01)
      ∧ decode ⟨.segment, [0b10000110]⟩ = .ok (.dotFlag 0b0000110)
      ∧ decode ⟨.digit, [0b00001001]⟩ = .ok (.encodeDigit 9)
      ∧ decode ⟨.overflow, [0b01000000, 0b01000000, 0b01000000, 0b01000000]⟩ = .ok .overflowFrame
      ∧ decode ⟨.overflow, [0b01000000, 0b01000000, 0b01000000]⟩ = .error .noSuchCode := by decide
/-- R103. -/
theorem test_decode_driver :
    decode ⟨.driver, [0b000, 7]⟩ = .ok (.setBrightness 7)
      ∧ decode ⟨.driver, [0b001, 0xFF, 0x00, 0x80, 0x7F]⟩ = .ok (.displayRaw ⟨0xFF, 0x00, 0x80, 0x7F⟩)
      ∧ decode ⟨.driver, [0b010, 3, 0xFF]⟩ = .ok (.displayAt 3 0xFF)
      ∧ decode ⟨.driver, [0b011, 0x2A, 0x00, 1]⟩ = .ok (.displayNumber 42 true)
      ∧ decode ⟨.driver, [0b011, 0xFB, 0xFF, 0]⟩ = .ok (.displayNumber 0xFFFB false)
      ∧ decode ⟨.driver, [0b100]⟩ = .ok .clear
      ∧ decode ⟨.driver, [0b101]⟩ = .ok .reservedSelect5
      ∧ decode ⟨.driver, [0b110]⟩ = .ok .reservedSelect6
      ∧ decode ⟨.driver, [0b111]⟩ = .ok .reservedSelect7
      ∧ decode ⟨.driver, [0b1000]⟩ = .error .noSuchCode
      ∧ decode ⟨.driver, [0b100, 0]⟩ = .error .wrongLength := by decide
/-- 42_tick_and_buttons.md R190 and the sub-steps (log entry 17). -/
theorem test_decode_tick_and_sub_steps :
    decode ⟨.tick, [0, 1]⟩ = .ok (.tick .low .high)
      ∧ decode ⟨.subStep, [0, 0]⟩ = .ok (.buttonEdgePressed .zero)
      ∧ decode ⟨.subStep, [1, 1]⟩ = .ok (.buttonEdgeReleased .one)
      ∧ decode ⟨.subStep, [2, 0]⟩ = .ok (.buttonHoldPressed .zero)
      ∧ decode ⟨.subStep, [3, 1]⟩ = .ok (.buttonHoldReleased .one)
      ∧ decode ⟨.subStep, [4]⟩ = .ok .gesture ∧ decode ⟨.subStep, [5]⟩ = .ok .applyReset
      ∧ decode ⟨.subStep, [6, 1]⟩ = .ok (.activate .one) ∧ decode ⟨.subStep, [7]⟩ = .ok .click0Dec
      ∧ decode ⟨.subStep, [8]⟩ = .ok .click1Inc ∧ decode ⟨.subStep, [9]⟩ = .ok .longPress0Floor
      ∧ decode ⟨.subStep, [10]⟩ = .ok .longPress1Snap ∧ decode ⟨.subStep, [11]⟩ = .ok .timeout
      ∧ decode ⟨.subStep, [12]⟩ = .error .noSuchCode := by decide
/-- R100 to R102. -/
theorem test_decode_codes :
    decode ⟨.mainStep, [0b000]⟩ = .ok .poll ∧ decode ⟨.mainStep, [0b001]⟩ = .ok .update
      ∧ decode ⟨.mainStep, [0b010]⟩ = .ok .render ∧ decode ⟨.mainStep, [0b011]⟩ = .ok .tx1
      ∧ decode ⟨.mainStep, [0b100]⟩ = .ok .tx2 ∧ decode ⟨.mainStep, [0b101]⟩ = .ok .tx3
      ∧ decode ⟨.mainStep, [0b110]⟩ = .ok .wait ∧ decode ⟨.mainStep, [0b111]⟩ = .error .noSuchCode
      ∧ decode ⟨.eventCode, [0b00]⟩ = .ok .eventNone ∧ decode ⟨.eventCode, [0b01]⟩ = .ok .eventClick
      ∧ decode ⟨.eventCode, [0b10]⟩ = .ok .eventLongPress ∧ decode ⟨.eventCode, [0b11]⟩ = .error .noSuchCode
      ∧ decode ⟨.runCode, [0b00]⟩ = .ok .runIdle ∧ decode ⟨.runCode, [0b01]⟩ = .ok .runActiveLeft
      ∧ decode ⟨.runCode, [0b10]⟩ = .ok .runActiveRight ∧ decode ⟨.runCode, [0b11]⟩ = .error .noSuchCode := by
  decide
/-- Table words (log entry 18): a byte slot, a command, segment bytes, the overflow frame, the selects. -/
theorem test_table_words :
    decodeTableWord 9 0x18F = some (.wrbyte 0x8F .high) ∧ decodeTableWord 8 0x40 = some .cmdDataAutoinc
      ∧ decodeTableWord 8 0xC2 = some (.cmdAddr 2) ∧ decodeTableWord 8 0x6D = some .glyph5
      ∧ decodeTableWord 8 0x86 = some (.dotFlag 0x06)
      ∧ decodeTableWord 32 0x40404040 = some .overflowFrame
      ∧ decodeTableWord 3 4 = some .clear ∧ decodeTableWord 3 5 = some .reservedSelect5
      ∧ decodeTableWord 2 2 = some .eventLongPress := by decide

/-! ### Single steps: the wire (95_test_vectors.md W1 to W11) -/

/-- W1. -/
theorem test_start : after .start base (fun t => decide (t.link.wire = [.d0, .c0])) = true := by decide
/-- W2, after a WRBYTE: the bus is idle. -/
theorem test_stop :
    after .stop { base with link := { base.link with lines := ⟨.high, .low, .output⟩ } }
      (fun t => decide (t.link.wire = [.c0, .d0, .c1, .d1]) && decide (t.link.lines = Lines.idleBus)) = true := by
  decide
/-- W3: WRBYTE(0x40), a = 0. -/
theorem test_wrbyte :
    after (.wrbyte 0x40 .low) base (fun t => decide (t.link.wire =
      [.c0, .d0, .c1, .c0, .d0, .c1, .c0, .d0, .c1, .c0, .d0, .c1, .c0, .d0, .c1, .c0, .d0, .c1,
       .c0, .d1, .c1, .c0, .d0, .c1, .c0, .dz, .c1, .w, .s .low, .d0])) = true := by decide
/-- The level view of W7: 27 states including the first; the released line is unknown until the sample 0 (R140). -/
theorem test_txn_level_view :
    after (.txn [0x40]) base (fun t =>
      decide ((levelView Lines.idleBus t.link.wire).map (fun l => (l.lines.clk, l.data)) =
        [(.high, some .low), (.low, some .low), (.high, some .low), (.low, some .low), (.high, some .low),
         (.low, some .low), (.high, some .low), (.low, some .low), (.high, some .low), (.low, some .low),
         (.high, some .low), (.low, some .low), (.high, some .low), (.low, some .low), (.low, some .high),
         (.high, some .high), (.low, some .high), (.low, some .low), (.high, some .low), (.low, some .low),
         (.low, none), (.high, some .low), (.high, some .low), (.low, some .low), (.high, some .low),
         (.high, some .high)])) = true := by decide
/-- W9: samples 1 then 0; the bytes read back are the bytes sent. -/
theorem test_txn_not_acknowledged :
    after (.txn [0xC2, 0x6D]) { base with link := { base.link with dioIn := [.high, .low] } } (fun t =>
      decide (samples t.link.wire = [.high, .low]) && decide (t.link.wire.length = 66)
        && decide (readBytes t.link.wire = [0xC2, 0x6D])) = true := by decide
/-- W11: the first of its three transactions, and the two that follow. -/
theorem test_sendSegments :
    after (.sendSegments 2 [0x6D]) base (fun t => decide (readBytes t.link.wire = [0x40])
      && decide (t.pending = [.addr 2 [0x6D], .ctrl])) = true := by decide
theorem test_sendSegments_rest :
    afterStep { base with brightness := 7, pending := [.addr 2 [0x6D], .ctrl], port := [.main] } (fun t =>
      decide (readBytes t.link.wire = [0xC2, 0x6D]) && decide (t.pending = [.ctrl])
        && decide (t.link.peer.disp = [(2, 0x6D)])) = true := by decide
/-- R66: the write has no mode test, positions 4 and 5 are written, and on bit, brightness and the other bytes stay. -/
theorem test_peer_fixed_mode :
    Peer.receive ⟨[(0, 1)], true, 3, 0, false⟩ [0xC4, 0x6D, 0x07, 0x3F]
      = some ⟨[(0, 1), (4, 0x6D), (5, 0x07)], true, 3, 4, false⟩ := by decide
/-- R66, R96, R98: the digit 4 with the point lights b, c, f, g and the point. -/
theorem test_lights :
    ([.a, .b, .c, .d, .e, .f, .g, .point] : List Segment).filter (Peer.lights ⟨[(2, 0xE6)], true, 0, 0, true⟩ 2)
      = [.b, .c, .f, .g, .point] := by decide

/-! ### Single steps: the byte rows and the pure rows -/

/-- R94, R95 and R161 at their last operand; the bytes of R98, R99. -/
theorem test_byte_rows :
    ([(.cmdDataAutoinc, 0x40), (.cmdAddr 3, 0xC3), (.cmdCtrl 7, 0x8F), (.segmentByte 0x77, 0x77),
      (.dotFlag 0x06, 0x86), (.glyphMinus, 0x40), (.glyphBlank, 0x00)] : List (Instr × Byte)).all
      (fun c => after c.1 base (fun t => decide (readBytes t.link.wire = [c.2]))) = true := by decide
theorem test_glyph_rows :
    ([(.glyph0, 0x3F), (.glyph1, 0x06), (.glyph2, 0x5B), (.glyph3, 0x4F), (.glyph4, 0x66), (.glyph5, 0x6D),
      (.glyph6, 0x7D), (.glyph7, 0x07), (.glyph8, 0x7F), (.glyph9, 0x6F)] : List (Instr × Byte)).all
      (fun c => after c.1 base (fun t => decide (readBytes t.link.wire = [c.2]))) = true := by decide
theorem test_overflowFrame :
    after .overflowFrame base (fun t => decide (readBytes t.link.wire = [0x40, 0x40, 0x40, 0x40])) = true := by
  decide
/-- S11. -/
theorem test_encodeDigit :
    ([(0, 0x3F), (5, 0x6D), (9, 0x6F), (10, 0x40), (255, 0x40)] : List (Byte × Byte)).all
      (fun c => after (.encodeDigit c.1) base (fun t => decide (t.result = c.2))) = true := by decide
/-- R100, R101. -/
theorem test_codes :
    ([(.eventNone, 0), (.eventClick, 1), (.eventLongPress, 2), (.runIdle, 0), (.runActiveLeft, 1),
      (.runActiveRight, 2)] : List (Instr × Byte)).all
      (fun c => after c.1 { base with result := 9 } (fun t => decide (t.result = c.2))) = true := by decide

/-! ### Single steps: the driver (V1 to V11) and format -/

/-- V1, V2. -/
theorem test_setBrightness :
    after (.setBrightness 7) base (fun t => decide (t.brightness = 7) && decide (t.link = base.link)) = true
      ∧ refuses (.setBrightness 8) base .levelOutOfRange = true := by decide
/-- V3. -/
theorem test_displayRaw :
    after (.displayRaw ⟨0xFF, 0x00, 0x80, 0x7F⟩) base
      (fun t => decide (t.pending = [.addr 0 [0xFF, 0x00, 0x80, 0x7F], .ctrl])) = true := by decide
/-- V5, V7. -/
theorem test_displayAt :
    after (.displayAt 3 0xFF) base (fun t => decide (t.pending = [.addr 3 [0xFF], .ctrl])) = true
      ∧ refuses (.displayAt 4 0x00) base .positionOutOfRange = true := by decide
/-- V9. -/
theorem test_displayNumber :
    after (.displayNumber 42 false) base
      (fun t => decide (t.pending = [.addr 0 [0x00, 0x00, 0x66, 0x5B], .ctrl])) = true := by decide
/-- The format table of 95_test_vectors.md, negative numbers as 16-bit words. -/
theorem test_format :
    ([(0, false, ⟨0x00, 0x00, 0x00, 0x3F⟩), (0, true, ⟨0x3F, 0x3F, 0x3F, 0x3F⟩),
      (9, true, ⟨0x3F, 0x3F, 0x3F, 0x6F⟩), (100, false, ⟨0x00, 0x06, 0x3F, 0x3F⟩),
      (305, false, ⟨0x00, 0x4F, 0x3F, 0x6D⟩), (1000, false, ⟨0x06, 0x3F, 0x3F, 0x3F⟩),
      (9999, false, ⟨0x6F, 0x6F, 0x6F, 0x6F⟩), (10000, false, ⟨0x40, 0x40, 0x40, 0x40⟩),
      (-5, false, ⟨0x40, 0x00, 0x00, 0x6D⟩), (-5, true, ⟨0x40, 0x3F, 0x3F, 0x6D⟩),
      (-100, false, ⟨0x40, 0x06, 0x3F, 0x3F⟩), (-999, false, ⟨0x40, 0x6F, 0x6F, 0x6F⟩),
      (-1000, false, ⟨0x40, 0x40, 0x40, 0x40⟩), (-32768, true, ⟨0x40, 0x40, 0x40, 0x40⟩)] :
      List (Int × Bool × Frame)).all
      (fun c => decide (format Config.default (BitVec.ofInt 16 c.1) c.2.1 = c.2.2)) = true := by decide
/-- V8, V11. -/
theorem test_clear :
    after .clear base (fun t => decide (t.pending = [.addr 0 [0, 0, 0, 0], .ctrl])) = true := by decide
theorem test_reserved_selects :
    refuses .reservedSelect5 base (.reservedSelect 5) = true
      ∧ refuses .reservedSelect6 base (.reservedSelect 6) = true
      ∧ refuses .reservedSelect7 base (.reservedSelect 7) = true := by decide

/-! ### Single steps: the tick context -/

/-- B1, and R191's wrap with the wake of R193. -/
theorem test_tick_released :
    after (.tick .high .high) base (fun t => decide (t = { base with now := 1 })) = true
      ∧ after (.tick .high .high) { base with now := 0xFFFF, mphase := .wait }
        (fun t => decide (t = { base with now := 0, mphase := .poll })) = true := by decide
/-- G2, step 50, under both policies: the gesture clears what the ButtonSteps latched. -/
theorem test_tick_gesture :
    after (.tick .low .low) { base with dur := ⟨49, 49⟩ } (fun t => decide (t =
      { base with now := 1, dur := ⟨50, 50⟩, resetReq := true, voided := ⟨true, true⟩ })) = true
      ∧ after (.tick .low .low) { baseHold with dur := ⟨49, 49⟩ } (fun t => decide (t =
        { baseHold with now := 1, dur := ⟨50, 50⟩, resetReq := true, voided := ⟨true, true⟩ })) = true := by
  decide
/-- B7: the counter saturates. -/
theorem test_buttonEdgePressed :
    after (.buttonEdgePressed .one) { base with dur := ⟨0, 65535⟩ } (fun t => decide (t.dur = ⟨0, 65535⟩)) = true
      ∧ after (.buttonEdgePressed .one) { base with dur := ⟨0, 65534⟩ }
        (fun t => decide (t.dur = ⟨0, 65535⟩)) = true := by decide
/-- S14: 49 nothing, 50 Click, 499 Click, 500 LongPress. -/
theorem test_buttonEdgeReleased :
    ([(49, .none), (50, .click), (499, .click), (500, .longPress)] : List (BitVec 16 × ButtonEvent)).all
      (fun c => after (.buttonEdgeReleased .zero) { base with dur := ⟨c.1, 7⟩ }
        (fun t => decide (t.evt = ⟨c.2, .none⟩) && decide (t.dur = ⟨0, 7⟩))) = true := by decide
/-- R204: a voided press is silent. -/
theorem test_buttonEdgeReleased_voided :
    after (.buttonEdgeReleased .zero) { base with dur := ⟨680, 0⟩, voided := ⟨true, true⟩ }
      (fun t => decide (t.evt = ⟨.none, .none⟩) && decide (t.voided = ⟨false, true⟩)) = true := by decide
/-- H2, H3, H5. -/
theorem test_buttonHoldPressed :
    ([(49, 50, .click), (50, 51, .none), (698, 699, .none), (699, 500, .click)] :
      List (BitVec 16 × BitVec 16 × ButtonEvent)).all
      (fun c => after (.buttonHoldPressed .zero) { baseHold with dur := ⟨c.1, 0⟩ }
        (fun t => decide (t.dur = ⟨c.2.1, 0⟩) && decide (t.evt = ⟨c.2.2, .none⟩))) = true := by decide
/-- H8. -/
theorem test_buttonHoldReleased :
    after (.buttonHoldReleased .zero) { baseHold with dur := ⟨600, 0⟩, voided := ⟨true, false⟩ }
      (fun t => decide (t = baseHold)) = true := by decide
/-- G1, G2, G8, and no second firing while both are voided. -/
theorem test_gesture :
    after .gesture { base with dur := ⟨49, 50⟩ } (fun t => t.resetReq == false) = true
      ∧ after .gesture { base with dur := ⟨50, 50⟩, evt := ⟨.none, .click⟩ } (fun t => decide (t =
        { base with dur := ⟨50, 50⟩, resetReq := true, voided := ⟨true, true⟩ })) = true
      ∧ after .gesture { base with dur := ⟨60, 60⟩, voided := ⟨true, true⟩ }
        (fun t => t.resetReq == false) = true := by decide

/-! ### Single steps: the main loop (U1 to U18, N1 to N15) -/

/-- The example of R231. -/
theorem test_poll :
    after .poll { base with evt := ⟨.click, .none⟩, now := 1234 } (fun t => decide (t =
      { base with now := 1234, snapEvt := ⟨.click, .none⟩, snapNow := 1234, mphase := .update })) = true := by
  decide
/-- U4 and U12. -/
theorem test_update :
    after .update { active .idle 20 20 0 61 with snapEvt := ⟨.click, .click⟩ } (fun t =>
      decide (t.run = .activeLeft) && decide (t.score = ⟨21, 20⟩) && decide (t.stateTime = 61)
        && decide (t.mphase = .render)) = true
      ∧ after .update { active .activeLeft 17 3 10 500 with snapReset := true, snapEvt := ⟨.none, .click⟩ }
        (fun t => decide (t.run = .activeRight) && decide (t.score = ⟨20, 20⟩)
          && decide (t.stateTime = 500)) = true := by decide
/-- N1, N2, N5, N6, N8, N9. -/
theorem test_render :
    ([(.idle, 20, 20, 7, ⟨0x5B, 0xBF, 0x5B, 0x3F⟩, 0), (.idle, 0, 7, 300, ⟨0x40, 0xC0, 0x3F, 0x07⟩, 0),
      (.activeLeft, 0, 20, 250, ⟨0x00, 0x80, 0x5B, 0x3F⟩, 7),
      (.activeLeft, 19, 20, 249, ⟨0x06, 0xEF, 0x5B, 0x3F⟩, 7),
      (.activeRight, 19, 20, 300, ⟨0x06, 0xEF, 0x00, 0x00⟩, 7),
      (.activeRight, 99, 10, 500, ⟨0x6F, 0xEF, 0x06, 0x3F⟩, 7)] :
      List (RunState × Fin 100 × Fin 100 × Nat × Frame × BitVec 3)).all
      (fun c => after .render { active c.1 c.2.1 c.2.2.1 0 c.2.2.2.1 with mphase := .render }
        (fun t => decide (t.frame = c.2.2.2.2.1) && decide (t.brightness = c.2.2.2.2.2)
          && decide (t.mphase = .tx1))) = true := by decide
/-- R246's example, one step each. -/
theorem test_tx1 :
    after .tx1 { base with mphase := .tx1 } (fun t => decide (readBytes t.link.wire = [0x40])
      && decide (t.mphase = .tx2)) = true := by decide
theorem test_tx2 :
    after .tx2 { base with mphase := .tx2, frame := ⟨0x5B, 0xBF, 0x5B, 0x3F⟩ } (fun t =>
      decide (readBytes t.link.wire = [0xC0, 0x5B, 0xBF, 0x5B, 0x3F]) && decide (t.mphase = .tx3)
        && decide (t.link.peer.disp = [(0, 0x5B), (1, 0xBF), (2, 0x5B), (3, 0x3F)])) = true := by decide
theorem test_tx3 :
    after .tx3 { base with mphase := .tx3, brightness := 2 } (fun t =>
      decide (readBytes t.link.wire = [0x8A]) && decide (t.mphase = .wait)
        && decide (t.link.peer.bright = 2) && t.link.peer.on) = true := by decide
theorem test_wait :
    after .wait { base with mphase := .wait } (fun t => decide (t = { base with mphase := .wait })) = true
      ∧ refuses .wait base .notEnabled = true := by decide
/-- U11. -/
theorem test_applyReset :
    after .applyReset (active .activeRight 17 3 10 500) (fun t => decide (t.run = .idle)
      && decide (t.score = ⟨20, 20⟩) && decide (t.stateTime = 10)) = true := by decide
/-- U3. -/
theorem test_activate :
    after (.activate .one) (active .idle 20 20 0 61) (fun t => decide (t.run = .activeRight)
      && decide (t.score = ⟨20, 20⟩) && decide (t.stateTime = 61)) = true
      ∧ refuses (.activate .one) (active .activeLeft 20 20 0 61) .notEnabled = true := by decide
/-- U6, S8: clamped, `stateTime` refreshed. -/
theorem test_click0Dec :
    after .click0Dec (active .activeLeft 0 20 10 500) (fun t => decide (t.score = ⟨0, 20⟩)
      && decide (t.stateTime = 500)) = true
      ∧ after .click0Dec (active .activeRight 20 20 10 500) (fun t => decide (t.score = ⟨20, 19⟩)) = true := by
  decide
/-- U7, S7, S9. -/
theorem test_click1Inc :
    after .click1Inc (active .activeLeft 99 20 10 500) (fun t => decide (t.score = ⟨99, 20⟩)
      && decide (t.stateTime = 500)) = true
      ∧ after .click1Inc (active .activeLeft 20 20 10 500) (fun t => decide (t.score = ⟨21, 20⟩)) = true := by
  decide
/-- U8. -/
theorem test_longPress0Floor :
    after .longPress0Floor (active .activeRight 20 57 10 500) (fun t => decide (t.score = ⟨20, 0⟩)
      && decide (t.stateTime = 500)) = true := by decide
/-- U9, U10. -/
theorem test_longPress1Snap :
    after .longPress1Snap (active .activeLeft 3 20 10 500) (fun t => decide (t.score = ⟨20, 20⟩)) = true
      ∧ after .longPress1Snap (active .activeLeft 57 20 10 500)
        (fun t => decide (t.score = ⟨20, 20⟩)) = true := by decide
/-- R237, R238, "Edge policy only"; R199, "LongPress does not exist under this policy". -/
theorem test_longPress_hold :
    let s := { active .activeRight 20 57 10 500 with cfg := { Config.default with policy := .hold } }
    refuses .longPress0Floor s .policyNotSelected = true
      ∧ refuses .longPress1Snap s .policyNotSelected = true := by decide
/-- U13, U14. -/
theorem test_timeout :
    after .timeout (active .activeLeft 20 20 100 2099) (fun t => decide (t.run = .activeLeft)) = true
      ∧ after .timeout (active .activeLeft 20 20 100 2100) (fun t => decide (t.run = .idle)) = true := by decide
/-- U16, U17: across the wrap. -/
theorem test_timeout_wrap :
    after .timeout (active .activeRight 20 20 0xFFF0 0x07BF) (fun t => decide (t.run = .activeRight)) = true
      ∧ after .timeout (active .activeRight 20 20 0xFFF0 0x07C0) (fun t => decide (t.run = .idle)) = true := by
  decide

/-! ### Single steps: the schedule -/

/-- I1: a TICK of the script falls between two transactions of a driver operation; a main-context operation waits. -/
theorem test_script_between_transactions :
    afterStep { base with pending := [.ctrl], port := [.op ⟨.tick, [1, 1]⟩, .op ⟨.driver, [4]⟩] } (fun t =>
      decide (t.now = 1) && decide (t.pending = [.ctrl]) && decide (t.port = [.op ⟨.driver, [4]⟩])) = true
      ∧ afterStep { base with pending := [.ctrl], port := [.op ⟨.driver, [4]⟩] } (fun t =>
        decide (readBytes t.link.wire = [0x88]) && decide (t.port = [.op ⟨.driver, [4]⟩])) = true := by decide
/-- `T 0 1 * 2`: one TICK step, one left; it waits for a driver operation in progress (R108). -/
theorem test_script_tick :
    afterStep { base with port := [.tick .low .high 2] } (fun t =>
      decide (t.now = 1) && decide (t.dur = ⟨1, 0⟩) && decide (t.port = [.tick .low .high 1])) = true
      ∧ afterStep { base with pending := [.ctrl], port := [.tick .low .high 2] } (fun t =>
        decide (t.now = 0) && decide (t.pending = []) && decide (t.port = [.tick .low .high 2])) = true := by decide
/-- `M ack=0 1 0 0 0 0 1` at TX2, where the sample of TX1 is taken: samples 1 0 0 0 0, one left. `M` takes samples 0. -/
theorem test_script_main :
    afterStep { State.reset with mphase := .tx2, port := [.mainToWait [.high, .low, .low, .low, .low, .high]] } (fun t =>
      decide (samples t.link.wire = [.high, .low, .low, .low, .low]) && decide (t.mphase = .tx3)
        && decide (t.port = [.mainToWait [.high]])) = true
      ∧ afterStep { State.reset with mphase := .tx3, port := [.mainToWait []] } (fun t =>
        decide (samples t.link.wire = [.low]) && decide (t.mphase = .wait)) = true := by decide
/-- `L 1 1 * 3` after an `M` that is over: a TICK step wakes the main loop, an `M` and two repetitions follow (R108). -/
theorem test_script_loop :
    afterStep { base with mphase := .wait, port := [.mainToWait [], .loop .high .high 3] } (fun t =>
      decide (t.now = 1) && decide (t.mphase = .poll)
        && decide (t.port = [.mainToWait [], .loop .high .high 2])) = true := by decide
/-- A code of no row is refused by name. -/
theorem test_undecodable : (match step { base with port := [.op ⟨.mainStep, [7]⟩] } with
    | .refused (.undecodable .noSuchCode) => true
    | _ => false) = true := by decide
/-- A presented word is run by the next step from reset. -/
theorem test_presented_word :
    afterStep (State.reset.withFetchWord 3 4) (fun t => decide (t.pending = [.addr 0 [0, 0, 0, 0], .ctrl])) = true := by
  decide
/-- The machine the host reads begins at reset. -/
theorem test_core_reset : Sys2Proof.core.reset = State.reset := rfl

/-! ### Witnesses: for each obligation with hypotheses, a state and operands that meet them together -/

/-- One operation in the script. -/
def scripted (f : Format) (bytes : List Byte) : State := { base with port := [.op ⟨f, bytes⟩] }

theorem witness_reset_inv : State.reset.Inv :=
  ⟨by decide, by decide, by decide, fun b h => (by cases b <;> cases h), fun h => (nomatch h),
    fun h => (nomatch h),
    by decide, by decide, by decide⟩
theorem witness_base_inv : base.Inv :=
  ⟨by decide, by decide, by decide, fun b h => (by cases b <;> cases h), fun h => (nomatch h),
    fun h => (nomatch h),
    by decide, by decide, by decide⟩
theorem witness_ResetMeetsTheInvariant :
    Config.default.ok = true ∧ 0xFFFF < 2 ^ Config.default.tickBits ∧ Memory.wf [(0, 1), (5, 2)] = true
      ∧ Memory.inDisp [(0, 1), (5, 2)] = true := by decide
theorem witness_EveryStepKeepsTheInvariant :
    (scripted .tick [0, 1]).Inv ∧ ∃ t, step (scripted .tick [0, 1]) = .next t :=
  ⟨⟨by decide, by decide, by decide, fun b h => (by cases b <;> cases h), fun h => (nomatch h),
    fun h => (nomatch h),
    by decide, by decide, by decide⟩, _, rfl⟩
/-- The clauses: an operation, in both alternatives of its hypothesis; `T`, `L`, `M`; and statements that are over. -/
theorem witness_StepRunsTheScriptsOperation :
    base.cfg.ok = true ∧ (scripted .driver [4]).port = .op ⟨.driver, [4]⟩ :: []
      ∧ decode ⟨.driver, [4]⟩ = .ok .clear ∧ (scripted .driver [4]).pending = []
      ∧ decode ⟨.tick, [0, 1]⟩ = .ok (.tick .low .high) ∧ Instr.tickContext (.tick .low .high) = true
      ∧ ({ base with port := [.tick .low .high 1] } : State).port = .tick .low .high (0 + 1) :: []
      ∧ ({ base with port := [.loop .low .high 1] } : State).port = .loop .low .high (0 + 1) :: []
      ∧ ({ base with port := [.mainToWait []], mphase := .tx2 } : State).port = .mainToWait [] :: []
      ∧ (.tx2 : Phase) ≠ .wait ∧ base.pending = []
      ∧ ({ base with port := [.mainToWait [], .main], mphase := .wait } : State).mphase = .wait := by decide
theorem witness_PresentedWordIsTheNextStep :
    State.reset.cfg.ok = true ∧ decodeTableWord 8 0x40 = some .cmdDataAutoinc := by decide
theorem witness_ScriptWaitsForTheDriverOperation :
    let s := { scripted .driver [4] with pending := [.addr 0 [1], .ctrl] }
    s.cfg.ok = true ∧ s.port = .op ⟨.driver, [4]⟩ :: [] ∧ decode ⟨.driver, [4]⟩ = .ok .clear
      ∧ Instr.tickContext .clear = false ∧ s.pending = .addr 0 [1] :: [.ctrl]
      ∧ ({ s with port := [.tick .low .low 1] } : State).port = .tick .low .low (0 + 1) :: []
      ∧ ({ s with port := [.mainToWait [.high]] } : State).port = .mainToWait [.high] :: [] := by decide
theorem witness_BlockByItselfAlwaysSteps : base.cfg.ok = true ∧ base.port = [] := by decide
theorem witness_WaitIsLeftByATickOnly :
    let s := { base with mphase := .wait }
    s.cfg.ok = true ∧ s.port = [] ∧ s.pending = [] ∧ s.mphase = .wait := by decide
/-- Each clause at the value next to its bound; the configuration is otherwise the default one. -/
theorem witness_BadConfigurationIsRefused :
    ([{ Config.default with debounce := 0 }, { Config.default with longPress := 49 },
      { Config.default with longPress := 65536 }, { Config.default with holdThreshold := 49 },
      { Config.default with repeatInterval := 0 }, { Config.default with repeatInterval := 65036 },
      { Config.default with blinkOn := 0 }, { Config.default with blinkPeriod := 250 },
      { Config.default with blinkPeriod := 65536 }, { Config.default with stateDuration := 65536 },
      { Config.default with tickBits := 11 }, { Config.default with brightDim := 7 }] : List Config).map Config.ok
      = List.replicate 12 false := by decide
theorem witness_DecodeReadsBackEveryEncoding : Instr.wf (.displayNumber 0x8000 true) = true := by decide
theorem witness_AcceptedCodeIsAnEncoding : decode ⟨.command, [0xC3]⟩ = .ok (.cmdAddr 3) := by decide
theorem witness_TransactionIsStartBytesStop :
    ([0xC2, 0x6D] : List Byte) ≠ [] ∧ ([.low, .low] : List Level).length = ([0xC2, 0x6D] : List Byte).length
      ∧ base.link.dioIn = [.low, .low] ++ List.replicate 14 .low := by decide
theorem witness_BytesAreReadBackFromTheWire :
    ∃ t es, exec (.txn [0xC2, 0x6D]) base = .next t ∧ t.link.wire = base.link.wire ++ es :=
  ⟨_, _, rfl, rfl⟩
/-- Two states that differ in the levels lined up, and an operation that draws them; a refused one. -/
theorem witness_AcknowledgmentsAreDiscarded :
    let s' : State := { base with link := { base.link with dioIn := [.high] } }
    sameButAck base s' ∧ (.low : Level) ≠ .high ∧ (∃ t, exec (.txn [0x40]) base = .next t)
      ∧ exec (.setBrightness 8) base = .refused .levelOutOfRange :=
  ⟨⟨rfl, rfl, rfl⟩, by decide, ⟨_, rfl⟩, rfl⟩
theorem witness_TraceOnlyGrows : ∃ t, step (scripted .transaction [0x40]) = .next t := ⟨_, rfl⟩
theorem witness_BusIsIdleBetweenSteps :
    Instr.isWirePiece (.txn [0x40]) = false ∧ base.busIdle ∧ base.port = [] ∧ ∃ t, exec (.txn [0x40]) base = .next t :=
  ⟨rfl, ⟨rfl, rfl⟩, rfl, _, rfl⟩
/-- The second clause: the block by itself, waiting, has a next step whatever the schedule. -/
theorem witness_BusIsIdleBetweenSteps_alone :
    ∃ t, step { base with mphase := .wait } = .next t := by
  have h : ∀ s : State, s.cfg.ok = true → s.port = [] → mainWaits s = true → ∃ t, step s = .next t := by
    intro s h1 h2 h3
    have h : step s = execTick (Config.freeButton s.draws .zero) (Config.freeButton s.draws .one)
        { s with draws := s.draws + 1 } := by
      have h2' : { s with port := [] } = s := by rw [← h2]
      simp only [step, nextAction, h1, h2, if_true, portAction, h2', freeAction, h3, Bool.or_true]
      rfl
    exact ⟨_, h.trans rfl⟩
  exact h _ (by decide) rfl (by decide)
theorem witness_ByteRowsSendTheirByte :
    Instr.rowByte (.cmdAddr 3) = some 0xC3 ∧ Instr.rowByte (.cmdCtrl 7) = some 0x8F
      ∧ Instr.rowByte (.dotFlag 0x7F) = some 0xFF ∧ Instr.rowByte .glyph9 = some 0x6F := by decide
theorem witness_OverflowFrameSendsItsFourBytes :
    base.link.dioIn = .low :: .low :: .low :: .low :: List.replicate 12 .low := by decide
theorem witness_PureRowsDeliverTheirValue :
    Instr.rowValue (.encodeDigit 9) = some 0x6F ∧ Instr.rowValue (.encodeDigit 10) = some 0x40
      ∧ Instr.rowValue .runActiveRight = some 2 := by decide
theorem witness_SetBrightnessStoresTheLevel : (7 : Byte).toNat ≤ 7 ∧ 7 < (8 : Byte).toNat := by decide
theorem witness_DisplayOperationsStartTheirFrame :
    base.pending = [] ∧ 1 ≤ ([0x6D] : List Byte).length ∧ (3 : Byte).toNat + ([0x6D] : List Byte).length ≤ 4
      ∧ (3 : Byte).toNat ≤ 3 := by decide
theorem witness_FrameIsThreeTransactions :
    let s := { base with port := [.op ⟨.frame, [3, 0x6D]⟩, .main, .main] }
    s.cfg.ok = true ∧ s.pending = [] ∧ 1 ≤ ([0x6D] : List Byte).length
      ∧ (3 : Byte).toNat + ([0x6D] : List Byte).length ≤ 4
      ∧ s.port = .op ⟨.frame, 3 :: [0x6D]⟩ :: .main :: .main :: [] := by decide
theorem witness_OutOfRangeOperationsAreRefused :
    4 < (3 : Byte).toNat + ([0, 0] : List Byte).length ∧ 3 < (4 : Byte).toNat := by decide
theorem witness_NumberShowsItsDigits :
    0 ≤ (0 : BitVec 16).toInt ∧ (9999 : BitVec 16).toInt ≤ 9999 := by decide
theorem witness_NegativeNumberShowsMinusAndMagnitude :
    -999 ≤ (BitVec.ofInt 16 (-999)).toInt ∧ (BitVec.ofInt 16 (-1)).toInt ≤ -1
      ∧ (BitVec.ofInt 16 (-999)).toInt ≤ -1 := by decide
theorem witness_OverflowIsDistinguishable :
    (BitVec.ofInt 16 (-1000)).toInt < -999 ∧ 9999 < (10000 : BitVec 16).toInt
      ∧ -999 ≤ (BitVec.ofInt 16 (-999)).toInt ∧ (9999 : BitVec 16).toInt ≤ 9999 := by decide
/-- From the last display address, with a byte at it and one past it; the largest address. -/
theorem witness_AddressTransactionStoresItsBytes :
    (5 : Byte).toNat < 16 ∧ (15 : Byte).toNat < 16 ∧ Memory.wf base.link.peer.disp = true
      ∧ base.link.dioIn = List.replicate 3 .low ++ List.replicate 13 .low
      ∧ (List.replicate 3 Level.low).length = ([0x6D, 0x07] : List Byte).length + 1
      ∧ (∀ a ∈ List.replicate 3 Level.low, a = .low)
      ∧ ([0x6D, 0x07] : List Byte)[0]? = some 0x6D ∧ (5 : Byte).toNat + 0 < 6
      ∧ (5 : Byte).toNat + ([0x6D, 0x07] : List Byte).length ≤ 7 := by decide
/-- Both clauses at both ends of their ranges. -/
theorem witness_CommandTransactionsSetThePeer :
    base.link.dioIn = List.replicate 1 .low ++ List.replicate 15 .low
      ∧ (List.replicate 1 Level.low).length = ([] : List Byte).length + 1
      ∧ (∀ a ∈ List.replicate 1 Level.low, a = .low)
      ∧ 64 ≤ (0x40 : Byte).toNat ∧ (0x7F : Byte).toNat < 128
      ∧ 128 ≤ (0x80 : Byte).toNat ∧ (0xBF : Byte).toNat < 192 := by decide
theorem witness_edge_policy : base.cfg.policy = .edge := by decide
theorem witness_hold_policy : baseHold.cfg.policy = .hold := by decide
/-- The three clauses of the release: at LONG_PRESS, at DEBOUNCE, and below it. -/
theorem witness_EdgeReleaseDecidesTheEvent :
    base.cfg.longPress ≤ (500 : BitVec 16).toNat ∧ base.cfg.debounce ≤ (50 : BitVec 16).toNat
      ∧ ¬ base.cfg.longPress ≤ (499 : BitVec 16).toNat ∧ ¬ base.cfg.debounce ≤ (49 : BitVec 16).toNat := by decide
/-- At DEBOUNCE, at the fold-back, and between. -/
theorem witness_HoldPressClicksAndFoldsBack :
    baseHold.cfg.ok = true ∧ baseHold.cfg.policy = .hold
      ∧ ([49, 699, 698] : List (BitVec 16)).all (fun d =>
        decide (d.toNat < baseHold.cfg.holdThreshold + baseHold.cfg.repeatInterval)) = true := by decide
theorem witness_GestureFiresOncePerHold :
    let s := { base with dur := ⟨50, 50⟩, voided := ⟨true, true⟩ }
    s.voided = ⟨true, true⟩ ∧ s.resetReq = false := by decide
theorem witness_VoidedPressIsSilent :
    let s := { base with dur := ⟨80, 0⟩, voided := ⟨true, false⟩ }
    s.voided.get .zero = true ∧ (∃ t, exec (.tick .high .high) s = .next t)
      ∧ (Duo.mk Level.high Level.high).get .zero = .high ∧ 1 ≤ s.cfg.debounce :=
  ⟨rfl, ⟨_, rfl⟩, rfl, by decide⟩
/-- The lengths at which the clauses meet: 49, 50, 499, 500. -/
theorem witness_EdgePressSummary :
    base.cfg.ok = true ∧ base.cfg.policy = .edge ∧ base.dur.get .one = 0 ∧ base.voided.get .one = false
      ∧ base.evt.get .one = .none ∧ 49 < base.cfg.debounce ∧ ¬ 50 < base.cfg.debounce
      ∧ 499 < base.cfg.longPress ∧ ¬ 500 < base.cfg.longPress := by decide
theorem witness_HoldClickSchedule :
    baseHold.cfg.ok = true ∧ baseHold.cfg.policy = .hold ∧ baseHold.dur.get .zero = 0
      ∧ baseHold.voided.get .zero = false := by decide
theorem witness_hold_click_samples :
    holdClickAt baseHold.cfg 50 ∧ holdClickAt baseHold.cfg 700 :=
  ⟨.inl rfl, .inr ⟨1, by decide, by decide⟩⟩
theorem witness_phases :
    (∃ s : State, s.mphase = .poll) ∧ (∃ s : State, s.mphase = .update) ∧ (∃ s : State, s.mphase = .render)
      ∧ (∃ s : State, s.mphase = .tx1) ∧ (∃ s : State, s.mphase = .tx2) ∧ (∃ s : State, s.mphase = .tx3)
      ∧ (∃ s : State, s.mphase = .wait) :=
  ⟨⟨base, rfl⟩, ⟨{ base with mphase := .update }, rfl⟩, ⟨{ base with mphase := .render }, rfl⟩,
    ⟨{ base with mphase := .tx1 }, rfl⟩, ⟨{ base with mphase := .tx2 }, rfl⟩,
    ⟨{ base with mphase := .tx3 }, rfl⟩, ⟨{ base with mphase := .wait }, rfl⟩⟩
theorem witness_MainLoopFollowsItsCycle : base.mphase ≠ .wait ∧ (.wait : Phase) ≠ base.mphase := by decide
theorem witness_ActivationKeepsScores :
    base.run = .idle ∧ (active .activeRight 20 20 0 61).run ≠ .idle := by decide
/-- Under the Edge policy with a LongPress, and under the Hold policy without one. -/
theorem witness_UpdateIsItsSubStepsInOrder :
    let s := { active .activeLeft 20 20 10 500 with snapEvt := ⟨.click, .longPress⟩ }
    let u := { baseHold with mphase := .update, snapEvt := ⟨.click, .none⟩ }
    s.mphase = .update ∧ s.cfg.policy ≠ .hold ∧ u.mphase = .update ∧ u.cfg.policy = .hold
      ∧ u.snapEvt.get .zero ≠ .longPress ∧ u.snapEvt.get .one ≠ .longPress := by decide
theorem witness_EditRowsEditTheActiveSide :
    (active .activeLeft 0 99 0 61).run = .activeLeft ∧ (active .activeRight 0 99 0 61).run = .activeRight
      ∧ base.run = .idle ∧ (active .activeLeft 0 99 0 61).cfg.policy = .edge ∧ base.cfg.policy = .edge
      ∧ baseHold.cfg.policy = .hold := by decide
/-- Elapsed 2000 and 1999, across the wrap. -/
theorem witness_TimeoutReturnsToIdle :
    (2000 : Int) ≤ ((0x07C0 : Int) - 0xFFF0) % (2 ^ 16 : Int)
      ∧ ¬ (2000 : Int) ≤ ((0x07BF : Int) - 0xFFF0) % (2 ^ 16 : Int) := by decide
theorem witness_ActiveSideChangesOnlyThroughIdle :
    let s := active .activeLeft 20 20 100 2100
    s.run ≠ .idle ∧ s.snapReset = false ∧ ∃ t, exec .update s = .next t :=
  ⟨by decide, rfl, _, rfl⟩
/-- In WAIT the step is a TICK step whatever the schedule, and the brightness is the function of `run`. -/
theorem witness_BrightnessFollowsRunState :
    let s := { base with mphase := .wait }
    s.port = [] ∧ s.pending = [] ∧ (s.mphase ≠ .render → s.brightness = s.cfg.brightDim) ∧ s.run = .idle :=
  ⟨rfl, rfl, fun _ => rfl, rfl⟩
theorem witness_DisplayShowsTheFrame :
    let s := { base with mphase := .tx1 }
    s.mphase = .tx1 ∧ Memory.wf s.link.peer.disp = true
      ∧ s.link.dioIn = List.replicate 7 .low ++ List.replicate 9 .low
      ∧ (List.replicate 7 Level.low).length = 7 ∧ ∀ a ∈ List.replicate 7 Level.low, a = .low := by decide
theorem witness_SameFrameTwiceIsOnce :
    let s := { base with mphase := .tx1 }
    s.mphase = .tx1 ∧ Memory.wf s.link.peer.disp = true
      ∧ s.link.dioIn = List.replicate 14 .low ++ List.replicate 2 .low
      ∧ ∃ t u, runAll [.tx1, .tx2, .tx3] s = .next t
        ∧ runAll [.tx1, .tx2, .tx3] { t with mphase := .tx1 } = .next u :=
  ⟨rfl, rfl, rfl, _, _, rfl, rfl⟩
/-- A row of each clause: the main loop's, and TICK from WAIT. -/
theorem witness_EveryRegisterHasItsOwner :
    (∃ t, exec .poll base = .next t) ∧ (∃ t, exec (.tick .low .high) { base with mphase := .wait } = .next t)
      ∧ ∀ p, phaseInstr p ≠ .tick .low .high := ⟨⟨_, rfl⟩, ⟨_, rfl⟩, fun p => by cases p <;> decide⟩
theorem witness_OnlyTransactionsReachTheWire :
    (∃ t, exec .gesture base = .next t) ∧ Instr.isWirePiece .gesture = false
      ∧ Instr.isTransaction .gesture = false ∧ Instr.tickContext .gesture = true :=
  ⟨⟨_, rfl⟩, rfl, rfl, rfl⟩

end Sys2Proof.Tests
end

section
/-! PROOFS. Statements of 00_scope.md: the configuration constraints of R9 and R10, and the button policy of R3. -/

namespace Sys2Proof

/-- The configuration check, constraint by constraint (00_scope.md R10 and the constraint column of R9). -/
theorem Config.ok_iff (c : Config) :
    c.ok = true ↔
      12 ≤ c.tickBits ∧ 1 ≤ c.debounce ∧ c.debounce ≤ c.longPress ∧ c.longPress ≤ durMax
        ∧ c.debounce ≤ c.holdThreshold ∧ 1 ≤ c.repeatInterval
        ∧ c.holdThreshold + c.repeatInterval ≤ durMax
        ∧ 0 < c.blinkOn ∧ c.blinkOn < c.blinkPeriod ∧ c.blinkPeriod < 2 ^ c.tickBits
        ∧ c.stateDuration < 2 ^ c.tickBits ∧ c.brightDim ≠ c.brightNormal := by
  simp only [ok, Bool.and_eq_true, decide_eq_true_eq, and_assoc]

namespace Machine

/-- The configuration is checked before the script and the schedule are looked at (00_scope.md R10). -/
theorem step_of_cfg_not_ok {s : State} (h : ¬ s.cfg.ok = true) : step s = .refused .badConfiguration := by
  rw [step, nextAction, if_neg h]

/-- Settles O9: the step is refused because the check fails, and each listed violation contradicts one constraint of
the check. -/
theorem badConfigurationIsRefused : Obligations.BadConfigurationIsRefused := by
  intro s hbad
  refine step_of_cfg_not_ok fun hok => ?_
  obtain ⟨hTick, hDebounce, hLong, hLongMax, hHold, hRepeat, hHoldMax, hOn, hPeriod, hPeriodMax, hState, hBright⟩ :=
    s.cfg.ok_iff.mp hok
  rcases hbad with h | h | h | h | h | h | h | h | h | h | h | h
  · exact hDebounce.not_gt h
  · exact hLong.not_gt h
  · exact hLongMax.not_gt h
  · exact hHold.not_gt h
  · exact hRepeat.not_gt h
  · exact hHoldMax.not_gt h
  · exact (Nat.succ_le_of_lt hOn).not_gt h
  · exact hPeriod.not_ge h
  · exact hPeriodMax.not_ge h
  · exact hState.not_ge h
  · exact hTick.not_gt h
  · exact hBright h

/-! ### The ButtonStep rows under the other policy (00_scope.md R3, log entry 13) -/

theorem exec_buttonEdgePressed_of_hold {s : State} (b : Idx) (h : s.cfg.policy = .hold) :
    exec (.buttonEdgePressed b) s = .refused .policyNotSelected := by
  rw [exec, execButtonEdgePressed, h]

theorem exec_buttonEdgeReleased_of_hold {s : State} (b : Idx) (h : s.cfg.policy = .hold) :
    exec (.buttonEdgeReleased b) s = .refused .policyNotSelected := by
  rw [exec, execButtonEdgeReleased, h]

theorem exec_buttonHoldPressed_of_edge {s : State} (b : Idx) (h : s.cfg.policy = .edge) :
    exec (.buttonHoldPressed b) s = .refused .policyNotSelected := by
  rw [exec, execButtonHoldPressed, h]

theorem exec_buttonHoldReleased_of_edge {s : State} (b : Idx) (h : s.cfg.policy = .edge) :
    exec (.buttonHoldReleased b) s = .refused .policyNotSelected := by
  rw [exec, execButtonHoldReleased, h]

/-- Settles O39: each of the two policies refuses the two rows of the other. -/
theorem unselectedPolicyHasNoStep : Obligations.UnselectedPolicyHasNoStep := fun _ b =>
  ⟨fun hHold => ⟨exec_buttonEdgePressed_of_hold b hHold, exec_buttonEdgeReleased_of_hold b hHold⟩,
    fun hEdge => ⟨exec_buttonHoldPressed_of_edge b hEdge, exec_buttonHoldReleased_of_edge b hEdge⟩⟩

end Machine

end Sys2Proof
end

section
/-! PROOFS. Statements of 10_state.md: the reset table of R42, the writers of R20, the invariant of R41, and the
brightness of R31. What each row of the table can do to the state is said once, by `RowEffect`. -/

namespace Sys2Proof

/-- The rows that begin a frame of three transactions, of which the last two are queued (40_wire_protocol.md R137). -/
def Instr.startsFrame : Instr → Bool
  | .sendSegments _ _ | .displayRaw _ | .displayAt _ _ | .displayNumber _ _ | .clear => true
  | _ => false

theorem Instr.tickContext_of_startsFrame {i : Instr} (h : i.startsFrame = true) : i.tickContext = false := by
  cases i with
  | sendSegments | displayRaw | displayAt | displayNumber | clear => rfl
  | _ => cases h

namespace Machine

/-! ### Reset (R42) -/

/-- Settles O1: each register of the reset state is the argument or the constant that the table lists. -/
theorem resetStateHoldsTheResetTable : Obligations.ResetStateHoldsTheResetTable :=
  ⟨fun _ _ _ _ _ _ _ _ => ⟨rfl, rfl, rfl, rfl, rfl, rfl, rfl, rfl, rfl, rfl, rfl, rfl, rfl, rfl, rfl, rfl, rfl,
    rfl, rfl⟩, rfl, rfl⟩

/-! ### What one row can do -/

/-- What UPDATE's transitions can write: `score`, `run`, and `stateTime` from the snapshot only (R21, R27, R29). -/
def UpdateWrites (s t : State) : Prop :=
  ∃ (score : Duo (Fin 100)) (run : RunState) (stateTime : Nat), (stateTime = s.stateTime ∨ stateTime = s.snapNow)
    ∧ t = { s with score := score, run := run, stateTime := stateTime }

theorem UpdateWrites.refl (s : State) : UpdateWrites s s := ⟨_, _, _, .inl rfl, rfl⟩

theorem UpdateWrites.trans {s t u : State} (hst : UpdateWrites s t) (htu : UpdateWrites t u) : UpdateWrites s u := by
  obtain ⟨_, _, _, htime, rfl⟩ := hst
  obtain ⟨score, run, stateTime, hkept | hsnap, rfl⟩ := htu
  · exact ⟨score, run, stateTime, htime.imp hkept.trans hkept.trans, rfl⟩
  · exact ⟨score, run, stateTime, .inr hsnap, rfl⟩

theorem updateWrites_applyReset (s : State) : UpdateWrites s (applyReset s) :=
  ⟨_, _, _, .inl rfl, rfl⟩

theorem updateWrites_activate (j : Idx) (s : State) : UpdateWrites s (activate j s) :=
  ⟨_, _, _, .inr rfl, rfl⟩

theorem updateWrites_editActive (j : Idx) (e : ButtonEvent) (sd : Idx) (s : State) :
    UpdateWrites s (editActive j e sd s) :=
  ⟨_, _, _, .inr rfl, rfl⟩

theorem updateWrites_applyTimeout (s : State) : UpdateWrites s (applyTimeout s) := by
  unfold applyTimeout
  split
  · exact ⟨_, _, _, .inl rfl, rfl⟩
  · exact .refl s

theorem updateWrites_handleEvent (j : Idx) (e : ButtonEvent) (s : State) : UpdateWrites s (handleEvent j e s) := by
  unfold handleEvent
  split
  · exact updateWrites_activate j s
  · exact updateWrites_editActive j e _ s

theorem updateWrites_handleSnap (j : Idx) (s : State) : UpdateWrites s (handleSnap j s) := by
  unfold handleSnap
  split
  · exact .refl s
  · exact updateWrites_handleEvent j _ s
  · exact updateWrites_handleEvent j _ s

theorem updateWrites_updateBody (s : State) : UpdateWrites s (updateBody s) := by
  have hreset : UpdateWrites s (if s.snapReset then applyReset s else s) := by
    split
    · exact updateWrites_applyReset s
    · exact .refl s
  exact ((hreset.trans (updateWrites_handleSnap .zero _)).trans (updateWrites_handleSnap .one _)).trans
    (updateWrites_applyTimeout _)

/-- What a row that completes can make of the state, by class of row. -/
inductive RowEffect (s : State) : Instr → State → Prop
  /-- A piece of a transaction, STOP apart: the link is written and the peer kept. -/
  | piece {i : Instr} {l : Link} (hi : i.isWirePiece = true) (hpeer : l.peer = s.link.peer) :
      RowEffect s i { s with link := l }
  | stop : RowEffect s .stop { s with link := s.link.stopCond }
  | txn (bytes : List Byte) : RowEffect s (.txn bytes) (transact bytes s)
  /-- SENDSEGMENTS and the display operations: a frame within the display. -/
  | frame {i : Instr} {p : Byte} {d : List Byte} (hi : i.startsFrame = true) (hrange : segmentsInRange p d = true) :
      RowEffect s i (startFrame p d s)
  /-- The pure rows: a value is delivered. -/
  | pure {i : Instr} (b : Byte) (hi : i.rowValue ≠ none) : RowEffect s i (deliver b s)
  | setBrightness (level : Byte) :
      RowEffect s (.setBrightness level) (storeBrightness (level.extractLsb' 0 3) s)
  /-- Both ButtonSteps read the press registers as they were before the step. -/
  | tick (b0 b1 : Level) :
      RowEffect s (.tick b0 b1)
        (wake (applyGesture
          (latch .one (buttonStep s.cfg (pressed b1) (press s .one)).2
            (latch .zero (buttonStep s.cfg (pressed b0) (press s .zero)).2
              (setPress .one (buttonStep s.cfg (pressed b1) (press s .one)).1
                (setPress .zero (buttonStep s.cfg (pressed b0) (press s .zero)).1 (clockIncrement s)))))))
  /-- A ButtonStep row of the selected policy. -/
  | button {i : Instr} (hi : i.tickContext = true) (b : Idx) (isPressed : Bool) :
      RowEffect s i (subStepButton b (buttonStep s.cfg isPressed (press s b)) s)
  | gesture : RowEffect s .gesture (applyGesture s)
  | poll : RowEffect s .poll
      { s with
        snapReset := s.resetReq
        resetReq := false
        snapEvt := s.evt
        evt := ⟨.none, .none⟩
        snapNow := s.now
        mphase := .update }
  | update (score : Duo (Fin 100)) (run : RunState) (stateTime : Nat)
      (htime : stateTime = s.stateTime ∨ stateTime = s.snapNow) : RowEffect s .update
      { s with score := score, run := run, stateTime := stateTime, mphase := .render }
  | render : RowEffect s .render
      { storeBrightness (brightnessOf s.cfg s.run) s with
        frame := renderFrame s.cfg s.run s.snapNow s.score
        mphase := .tx1 }
  /-- TX1, TX2, TX3. -/
  | transmitStep {i : Instr} (p : Phase) (bytes : List Byte) (hi : i = phaseInstr p) :
      RowEffect s i { transact bytes s with mphase := p.next }
  | wait : RowEffect s .wait s
  /-- A sub-step of UPDATE run by itself. -/
  | updatePart {i : Instr} (hi : i.isUpdate = true) (score : Duo (Fin 100)) (run : RunState) (stateTime : Nat)
      (htime : stateTime = s.stateTime ∨ stateTime = s.snapNow) :
      RowEffect s i { s with score := score, run := run, stateTime := stateTime }

theorem rowEffect_transmit {i : Instr} (hi : i.isWirePiece = true) (bytes : List Byte) (s : State) :
    RowEffect s i (transmit bytes s) :=
  .piece hi (sendBytes_peer s.link bytes)

theorem rowEffect_updatePart {i : Instr} {s t : State} (hi : i.isUpdate = true) (ht : UpdateWrites s t) :
    RowEffect s i t := by
  obtain ⟨score, run, stateTime, hn, rfl⟩ := ht
  exact .updatePart hi score run stateTime hn

/-- The ButtonStep row of the selected policy runs that policy's ButtonStep (42_tick_and_buttons.md R190). -/
theorem exec_buttonRow (b : Idx) (level : Level) (s : State) :
    exec (buttonRow s.cfg.policy b level) s
      = .next (subStepButton b (buttonStep s.cfg (pressed level) (press s b)) s) := by
  cases hp : s.cfg.policy with
  | edge => cases level <;> simp [buttonRow, exec, execButtonEdgePressed, execButtonEdgeReleased, buttonStep, hp]
  | hold => cases level <;> simp [buttonRow, exec, execButtonHoldPressed, execButtonHoldReleased, buttonStep, hp]

theorem exec_buttonRow_of_ne {policy : BtnPolicy} {s : State} (b : Idx) (level : Level) (h : s.cfg.policy ≠ policy) :
    exec (buttonRow policy b level) s = .refused .policyNotSelected := by
  cases policy with
  | edge =>
    have hp : s.cfg.policy = .hold := by cases hc : s.cfg.policy with | hold => rfl | edge => exact absurd hc h
    cases level
    · exact exec_buttonEdgePressed_of_hold b hp
    · exact exec_buttonEdgeReleased_of_hold b hp
  | hold =>
    have hp : s.cfg.policy = .edge := by cases hc : s.cfg.policy with | edge => rfl | hold => exact absurd hc h
    cases level
    · exact exec_buttonHoldPressed_of_edge b hp
    · exact exec_buttonHoldReleased_of_edge b hp

theorem tickContext_buttonRow (policy : BtnPolicy) (b : Idx) (level : Level) :
    (buttonRow policy b level).tickContext = true := by
  cases policy <;> cases level <;> rfl

theorem rowEffect_buttonRow {policy : BtnPolicy} {b : Idx} {level : Level} {s t : State}
    (h : exec (buttonRow policy b level) s = .next t) : RowEffect s (buttonRow policy b level) t := by
  by_cases hp : s.cfg.policy = policy
  · subst hp
    rw [exec_buttonRow] at h
    cases h
    exact .button (tickContext_buttonRow _ b level) b (pressed level)
  · rw [exec_buttonRow_of_ne b level hp] at h
    cases h

/-- A guarded answer that is a next state met its guard. -/
theorem ite_next {c : Prop} [Decidable c] {r : Refusal} {t u : State}
    (h : (if c then .next u else .refused r : Host.Outcome State Fault Refusal) = .next t) : c ∧ u = t := by
  split at h
  · cases h; exact ⟨‹c›, rfl⟩
  · cases h

/-- Every row that completes has its effect. -/
theorem exec_effect {i : Instr} {s t : State} (h : exec i s = .next t) : RowEffect s i t := by
  cases i with
  | start => cases h; exact .piece rfl rfl
  | stop => cases h; exact .stop
  | wrbyte v k => cases h; exact .piece rfl (wrByte_peer s.link v k)
  | txn bytes =>
    cases bytes with
    | nil => cases h
    | cons b rest => cases h; exact .txn (b :: rest)
  | sendSegments p d =>
    obtain ⟨hrange, rfl⟩ := ite_next h
    exact .frame rfl hrange
  | cmdDataAutoinc | cmdAddr | cmdCtrl | segmentByte | glyph0 | glyph1 | glyph2 | glyph3 | glyph4 | glyph5 | glyph6
  | glyph7 | glyph8 | glyph9 | glyphMinus | glyphBlank | dotFlag | overflowFrame =>
    cases h; exact rowEffect_transmit rfl _ s
  | encodeDigit | eventNone | eventClick | eventLongPress | runIdle | runActiveLeft | runActiveRight =>
    cases h; exact .pure _ nofun
  | setBrightness level =>
    obtain ⟨-, rfl⟩ := ite_next h
    exact .setBrightness level
  | displayRaw | displayNumber | clear => cases h; exact .frame rfl rfl
  | displayAt p b =>
    obtain ⟨hp, rfl⟩ := ite_next h
    exact .frame rfl (decide_eq_true (Nat.succ_le_succ hp))
  | reservedSelect5 | reservedSelect6 | reservedSelect7 => cases h
  | tick b0 b1 => cases h; exact .tick b0 b1
  | buttonEdgePressed b => exact rowEffect_buttonRow (policy := .edge) (level := .low) h
  | buttonEdgeReleased b => exact rowEffect_buttonRow (policy := .edge) (level := .high) h
  | buttonHoldPressed b => exact rowEffect_buttonRow (policy := .hold) (level := .low) h
  | buttonHoldReleased b => exact rowEffect_buttonRow (policy := .hold) (level := .high) h
  | gesture => cases h; exact .gesture
  | poll => obtain ⟨-, rfl⟩ := inPhase_next h; exact .poll
  | update =>
    obtain ⟨-, rfl⟩ := inPhase_next h
    obtain ⟨score, run, stateTime, hn, hbody⟩ := updateWrites_updateBody s
    rw [hbody]
    exact .update score run stateTime hn
  | render => obtain ⟨-, rfl⟩ := inPhase_next h; exact .render
  | tx1 => obtain ⟨-, rfl⟩ := inPhase_next h; exact .transmitStep .tx1 _ rfl
  | tx2 => obtain ⟨-, rfl⟩ := inPhase_next h; exact .transmitStep .tx2 _ rfl
  | tx3 => obtain ⟨-, rfl⟩ := inPhase_next h; exact .transmitStep .tx3 _ rfl
  | wait => obtain ⟨-, rfl⟩ := inPhase_next h; exact .wait
  | applyReset => cases h; exact rowEffect_updatePart rfl (updateWrites_applyReset s)
  | activate j =>
    cases hr : s.run with
    | idle =>
      rw [exec, execActivate, hr] at h
      cases h; exact rowEffect_updatePart rfl (updateWrites_activate j s)
    | activeLeft | activeRight => rw [exec, execActivate, hr] at h; cases h
  | click0Dec | click1Inc =>
    obtain ⟨sd, -, rfl⟩ := editOnly_next h
    exact rowEffect_updatePart rfl (updateWrites_editActive _ _ sd s)
  | longPress0Floor | longPress1Snap =>
    obtain ⟨-, sd, -, rfl⟩ := longPressEdit_next h
    exact rowEffect_updatePart rfl (updateWrites_editActive _ _ sd s)
  | timeout => cases h; exact rowEffect_updatePart rfl (updateWrites_applyTimeout s)

/-! ### What each register's owners are (R20), one register at a time -/

section Owners

variable {i : Instr} {s t : State} (h : exec i s = .next t)
include h

theorem exec_cfg : t.cfg = s.cfg := by
  cases exec_effect h <;> simp [subStepButton]

theorem exec_port : t.port = s.port := by
  cases exec_effect h <;> simp [subStepButton]

theorem exec_draws : t.draws = s.draws := by
  cases exec_effect h <;> simp [subStepButton]

theorem exec_score_run_stateTime (hi : i.isUpdate = false) :
    t.score = s.score ∧ t.run = s.run ∧ t.stateTime = s.stateTime := by
  cases exec_effect h with
  | update => cases hi
  | updatePart hu => rw [hu] at hi; cases hi
  | _ => simp [subStepButton]

theorem exec_now_dur_voided (hi : i.tickContext = false) :
    t.now = s.now ∧ t.dur = s.dur ∧ t.voided = s.voided := by
  cases exec_effect h with
  | tick | gesture => cases hi
  | button ht => rw [ht] at hi; cases hi
  | _ => simp

theorem exec_evt_resetReq (hi : i.tickContext = false) (hpoll : i ≠ .poll) :
    t.evt = s.evt ∧ t.resetReq = s.resetReq := by
  cases exec_effect h with
  | tick | gesture => cases hi
  | button ht => rw [ht] at hi; cases hi
  | poll => exact absurd rfl hpoll
  | _ => simp

theorem exec_snapshot (hpoll : i ≠ .poll) :
    t.snapReset = s.snapReset ∧ t.snapEvt = s.snapEvt ∧ t.snapNow = s.snapNow := by
  cases exec_effect h with
  | poll => exact absurd rfl hpoll
  | _ => simp [subStepButton]

theorem exec_frame (hrender : i ≠ .render) : t.frame = s.frame := by
  cases exec_effect h with
  | render => exact absurd rfl hrender
  | _ => simp [subStepButton]

theorem exec_brightness (hrender : i ≠ .render) (hset : ∀ level, i ≠ .setBrightness level) :
    t.brightness = s.brightness := by
  cases exec_effect h with
  | render => exact absurd rfl hrender
  | setBrightness level => exact absurd rfl (hset level)
  | _ => simp [subStepButton]

theorem exec_mphase (hi : ∀ p, i ≠ phaseInstr p) :
    t.mphase = s.mphase ∨ ((∃ b0 b1, i = .tick b0 b1) ∧ s.mphase = .wait ∧ t.mphase = .poll) := by
  cases exec_effect h with
  | poll => exact absurd rfl (hi .poll)
  | update => exact absurd rfl (hi .update)
  | render => exact absurd rfl (hi .render)
  | transmitStep p _ hp => exact absurd hp (hi p)
  | tick b0 b1 =>
    by_cases hw : s.mphase = .wait
    · exact .inr ⟨⟨b0, b1, rfl⟩, hw, by simp [hw]⟩
    · exact .inl (by simp [hw])
  | _ => simp [subStepButton]

theorem exec_result (hi : i.rowValue = none) : t.result = s.result := by
  cases exec_effect h with
  | pure _ hv => exact absurd hi hv
  | _ => simp [subStepButton]

theorem exec_pending (hi : i.startsFrame = false) : t.pending = s.pending := by
  cases exec_effect h with
  | frame hf => rw [hf] at hi; cases hi
  | _ => simp [subStepButton]

end Owners

/-- Settles O59: each clause is the frame lemma of its registers. -/
theorem everyRegisterHasItsOwner : Obligations.EveryRegisterHasItsOwner := fun _ _ _ h =>
  ⟨exec_cfg h, exec_port h, exec_draws h, exec_score_run_stateTime h, exec_now_dur_voided h, exec_evt_resetReq h,
    exec_snapshot h, exec_frame h, exec_brightness h, exec_mphase h, exec_result h⟩

/-! ### The press registers of one button (R41 (3), (4)) -/

/-- The part of the invariant that speaks of one button's press registers. -/
structure Press.Inv (cfg : Config) (p : Press) : Prop where
  voided_held : p.voided = true → cfg.debounce ≤ p.dur.toNat
  hold_bound : cfg.policy = .hold → p.dur.toNat < cfg.holdThreshold + cfg.repeatInterval

theorem State.Inv.press {s : State} (h : s.Inv) (b : Idx) : (press s b).Inv s.cfg :=
  ⟨h.voided_held b, fun hp => h.hold_bound hp b⟩

theorem Press.inv_released {cfg : Config} (hok : cfg.ok = true) : Press.Inv cfg ⟨0, false⟩ := by
  obtain ⟨-, -, -, -, -, hrepeat, -⟩ := cfg.ok_iff.mp hok
  exact ⟨nofun, fun _ => Nat.add_pos_right _ hrepeat⟩

theorem toNat_succ_of_lt {n : Nat} {d : BitVec 16} (hd : d.toNat < n) (hn : n ≤ Config.durMax) :
    (d + 1).toNat = d.toNat + 1 := by
  unfold Config.durMax at hn
  bv_omega

theorem edgePressed_inv {cfg : Config} {p : Press} (hpol : cfg.policy = .edge) (h : p.Inv cfg) :
    (edgePressed p).1.Inv cfg := by
  refine ⟨fun hv => ?_, fun hc => absurd (hpol.symm.trans hc) nofun⟩
  unfold edgePressed at hv ⊢
  split
  case isTrue hd =>
    rw [if_pos hd] at hv
    have hheld := h.voided_held hv
    have hsucc : (p.dur + 1).toNat = p.dur.toNat + 1 := toNat_succ_of_lt hd le_rfl
    simp only [hsucc]
    omega
  case isFalse hd =>
    rw [if_neg hd] at hv
    exact h.voided_held hv

/-- The counter folds back to HOLD_THRESHOLD, which is at least DEBOUNCE, before it reaches its bound (R200). -/
theorem holdPressed_inv {cfg : Config} {p : Press} (hok : cfg.ok = true) (hpol : cfg.policy = .hold)
    (h : p.Inv cfg) : (holdPressed cfg p).1.Inv cfg := by
  obtain ⟨-, -, -, -, hthreshold, hrepeat, hmax, -⟩ := cfg.ok_iff.mp hok
  have hbound := h.hold_bound hpol
  have hsucc := toNat_succ_of_lt hbound hmax
  unfold Config.durMax at hmax
  simp only [holdPressed]
  split
  case isTrue hd => exact ⟨fun _ => hd.ge, fun _ => by simp only; omega⟩
  case isFalse =>
    split
    case isTrue =>
      have hfold : (BitVec.ofNat 16 cfg.holdThreshold).toNat = cfg.holdThreshold := by
        rw [BitVec.toNat_ofNat]; exact Nat.mod_eq_of_lt (by omega)
      exact ⟨fun _ => by simp only [hfold]; exact hthreshold, fun _ => by simp only [hfold]; omega⟩
    case isFalse hd =>
      refine ⟨fun hv => ?_, fun _ => by simp only; omega⟩
      have hheld := h.voided_held hv
      simp only [hsucc]
      omega

theorem buttonStep_inv {cfg : Config} {p : Press} (hok : cfg.ok = true) (h : p.Inv cfg) (isPressed : Bool) :
    (buttonStep cfg isPressed p).1.Inv cfg := by
  unfold buttonStep
  split
  case h_1 hpol => exact edgePressed_inv hpol h
  case h_2 => exact Press.inv_released hok
  case h_3 hpol => exact holdPressed_inv hok hpol h
  case h_4 => exact Press.inv_released hok

theorem clickUnless_ne_longPress (voided : Bool) : clickUnless voided ≠ .longPress := by cases voided <;> nofun

/-- Under the Hold policy LongPress does not exist (42_tick_and_buttons.md R199). -/
theorem buttonStep_event_of_hold {cfg : Config} (hpol : cfg.policy = .hold) (isPressed : Bool) (p : Press) :
    (buttonStep cfg isPressed p).2 ≠ .longPress := by
  cases isPressed with
  | false => simp [buttonStep, hpol, holdReleased]
  | true =>
    simp only [buttonStep, hpol, holdPressed]
    split
    · exact clickUnless_ne_longPress _
    · split
      · exact clickUnless_ne_longPress _
      · nofun

/-! ### Each shared operation keeps the invariant (R41) -/

theorem inv_setPress {s : State} (h : s.Inv) (b : Idx) {p : Press} (hp : p.Inv s.cfg) : (setPress b p s).Inv := by
  have hpress (c : Idx) : (press (setPress b p s) c).Inv s.cfg := by
    by_cases hc : c = b
    · subst hc; simpa [press] using hp
    · simpa [press, Duo.get_set_other _ _ hc] using h.press c
  exact { h with
    voided_held := fun c => (hpress c).voided_held
    hold_bound := fun hpol c => (hpress c).hold_bound hpol }

theorem latch_get (b c : Idx) (e : ButtonEvent) (s : State) :
    (latch b e s).evt.get c = s.evt.get c ∨ (latch b e s).evt.get c = e := by
  by_cases hc : c = b
  · subst hc; cases e <;> simp
  · cases e <;> simp [Duo.get_set_other _ _ hc]

theorem inv_latch {s : State} (h : s.Inv) (b : Idx) {e : ButtonEvent} (he : s.cfg.policy = .hold → e ≠ .longPress) :
    (latch b e s).Inv := by
  rw [latch_changes]
  refine { h with longPress_edge := fun hpol c => ⟨?_, (h.longPress_edge hpol c).2⟩ }
  rcases latch_get b c e s with hget | hget
  · exact ne_of_eq_of_ne hget (h.longPress_edge hpol c).1
  · exact ne_of_eq_of_ne hget (he hpol)

/-- The gesture voids both presses only when both have lasted DEBOUNCE (R202). -/
theorem inv_applyGesture {s : State} (h : s.Inv) : (applyGesture s).Inv := by
  unfold applyGesture
  split
  case isTrue hfires =>
    simp only [gestureFires, Bool.and_eq_true, decide_eq_true_eq] at hfires
    obtain ⟨⟨hd0, hd1⟩, -⟩ := hfires
    exact { h with
      voided_held := fun c _ => by cases c <;> assumption
      longPress_edge := fun hpol c => ⟨by cases c <;> nofun, (h.longPress_edge hpol c).2⟩ }
  case isFalse => exact h

theorem inv_wake {s : State} (h : s.Inv) : (wake s).Inv := by
  rw [wake_changes]
  exact { h with }

theorem inv_clockIncrement {s : State} (h : s.Inv) : (clockIncrement s).Inv :=
  { h with now_lt := tickInc_lt _ _ }

theorem inv_transact {s : State} (h : s.Inv) (bytes : List Byte) : (transact bytes s).Inv :=
  { h with disp_wf := transact_wf h.disp_wf bytes, disp_in := transact_inDisp h.disp_in bytes }

theorem inv_startFrame {s : State} (h : s.Inv) {p : Byte} {d : List Byte} (hp : s.pending = [])
    (hrange : segmentsInRange p d = true) : (startFrame p d s).Inv := by
  rw [startFrame_eq p d hp]
  exact { inv_transact h [cmdDataAutoincByte] with pending_shape := hrange }

theorem pendingShape_tail {p : Pending} {ps : List Pending} (h : pendingShape (p :: ps) = true) :
    pendingShape ps = true := by
  unfold pendingShape at h
  split at h
  case h_1 hq => cases hq
  case h_2 hq => cases hq; rfl
  case h_3 hq => cases hq; rfl
  case h_4 => cases h

theorem inv_sendPending {s : State} (h : s.Inv) : (sendPending s).Inv := by
  cases hp : s.pending with
  | nil => simpa [sendPending, hp] using h
  | cons p ps =>
    rw [sendPending_cons hp]
    have hshape := h.pending_shape
    rw [hp] at hshape
    exact { inv_transact h (pendingBytes s.brightness p) with pending_shape := pendingShape_tail hshape }

theorem inv_updateWrites {s : State} (h : s.Inv) (score : Duo (Fin 100)) (run : RunState) {stateTime : Nat}
    (hn : stateTime = s.stateTime ∨ stateTime = s.snapNow) :
    ({ s with score := score, run := run, stateTime := stateTime } : State).Inv := by
  rcases hn with rfl | rfl
  · exact { h with }
  · exact { h with stateTime_lt := h.snapNow_lt }

/-- A row that completes keeps the invariant; a main-context row needs that no driver operation is in progress. -/
theorem exec_inv {i : Instr} {s t : State} (hok : s.cfg.ok = true) (h : s.Inv)
    (hi : s.pending = [] ∨ i.tickContext = true) (hexec : exec i s = .next t) : t.Inv := by
  have hbutton (b : Idx) (isPressed : Bool) : (buttonStep s.cfg isPressed (press s b)).1.Inv s.cfg :=
    buttonStep_inv hok (h.press b) isPressed
  have hevent (b : Idx) (isPressed : Bool) (hpol : s.cfg.policy = .hold) :
      (buttonStep s.cfg isPressed (press s b)).2 ≠ .longPress :=
    buttonStep_event_of_hold hpol isPressed _
  cases exec_effect hexec with
  | piece _ hpeer => exact { h with disp_wf := hpeer ▸ h.disp_wf, disp_in := hpeer ▸ h.disp_in }
  | stop => exact { h with disp_wf := complete_wf h.disp_wf, disp_in := complete_inDisp h.disp_in }
  | txn bytes => exact inv_transact h bytes
  | frame hf hrange =>
    have hp : s.pending = [] := hi.resolve_right (by simp [Instr.tickContext_of_startsFrame hf])
    exact inv_startFrame h hp hrange
  | pure | setBrightness => exact { h with }
  | tick b0 b1 =>
    have hpress := inv_setPress (inv_setPress (inv_clockIncrement h) .zero (hbutton .zero (pressed b0))) .one
      (hbutton .one (pressed b1))
    refine inv_wake (inv_applyGesture (inv_latch (inv_latch hpress .zero (hevent .zero (pressed b0))) .one ?_))
    simpa using hevent .one (pressed b1)
  | button _ b isPressed =>
    exact inv_latch (inv_setPress h b (hbutton b isPressed)) b (hevent b isPressed)
  | gesture => exact inv_applyGesture h
  | poll =>
    exact { h with
      snapNow_lt := h.now_lt
      longPress_edge := fun hpol c => ⟨by cases c <;> nofun, (h.longPress_edge hpol c).1⟩ }
  | update score run _ hn => exact { inv_updateWrites h score run hn with }
  | render => exact { h with }
  | transmitStep _ bytes => exact { inv_transact h bytes with }
  | wait => exact h
  | updatePart _ score run _ hn => exact inv_updateWrites h score run hn

/-- Settles O3: the operation or the queued transaction of the step keeps the invariant, and the script, the schedule's
counter and the levels lined up are no part of it. -/
theorem everyStepKeepsTheInvariant : Obligations.EveryStepKeepsTheInvariant := by
  intro s t h hstep
  obtain ⟨hok, u, hu, hcase⟩ := step_cases hstep
  have hinv : u.Inv := by
    rw [hu]
    exact { h with }
  rcases hcase with ⟨i, hexec, hi⟩ | ⟨-, rfl⟩
  · exact exec_inv (by rw [hu]; exact hok) hinv hi hexec
  · exact inv_sendPending hinv

/-- Settles O2: each clause of the invariant is a premise or a value of the reset table. -/
theorem resetMeetsTheInvariant : Obligations.ResetMeetsTheInvariant := by
  intro cfg now stateTime snapNow snapReset frame peer hok hnow hstateTime hsnapNow hwf hin
  refine ⟨?_, rfl, rfl⟩
  exact {
    now_lt := hnow
    stateTime_lt := hstateTime
    snapNow_lt := hsnapNow
    voided_held := fun b hv => by cases b <;> cases hv
    hold_bound := fun hpol b => by cases b <;> exact (Press.inv_released hok).hold_bound hpol
    longPress_edge := fun _ b => by cases b <;> exact ⟨nofun, nofun⟩
    disp_wf := hwf
    disp_in := hin
    pending_shape := rfl }

/-! ### Brightness (R31, 43_scoreboard.md R245) -/

/-- Outside the interval from UPDATE to RENDER the brightness register is the function of `run`. -/
def State.BrightnessFollows (s : State) : Prop := s.mphase ≠ .render → s.brightness = brightnessOf s.cfg s.run

/-- The block by itself, with no driver operation in progress, runs TICK or the row of its phase. -/
theorem step_free_cases {s t : State} (hport : s.port = []) (hpend : s.pending = []) (hstep : step s = .next t) :
    ∃ i, ((∃ b0 b1, i = .tick b0 b1) ∨ i = phaseInstr s.mphase) ∧ exec i { s with draws := s.draws + 1 } = .next t := by
  have hok : s.cfg.ok = true := (step_cases hstep).1
  have hmain : mainAction { s with draws := s.draws + 1 }
      = .run (phaseInstr s.mphase) { s with draws := s.draws + 1 } := by
    simp [mainAction, hpend]
  have hnext := nextAction_free hok hport
  by_cases hc : (Config.freeTick s.draws || mainWaits s) = true
  · rw [freeAction, if_pos hc] at hnext
    rw [step_run hnext] at hstep
    exact ⟨_, .inl ⟨_, _, rfl⟩, hstep⟩
  · rw [freeAction, if_neg hc, hmain] at hnext
    rw [step_run hnext] at hstep
    exact ⟨_, .inr rfl, hstep⟩

theorem exec_brightnessFollows {i : Instr} {s t : State} (h : exec i s = .next t)
    (hi : (∃ b0 b1, i = .tick b0 b1) ∨ i = phaseInstr s.mphase) (hb : s.BrightnessFollows) : t.BrightnessFollows := by
  have hkept (hupdate : i.isUpdate = false) (hrender : i ≠ .render) (hset : ∀ level, i ≠ .setBrightness level)
      (hs : s.mphase ≠ .render) : t.brightness = brightnessOf t.cfg t.run := by
    obtain ⟨-, hrun, -⟩ := exec_score_run_stateTime h hupdate
    rw [exec_brightness h hrender hset, exec_cfg h, hrun]
    exact hb hs
  rcases hi with ⟨b0, b1, rfl⟩ | rfl
  · intro ht
    refine hkept rfl nofun nofun ?_
    rcases exec_mphase h (fun p => by cases p <;> nofun) with hm | ⟨-, hm, -⟩
    · exact hm ▸ ht
    · rw [hm]; nofun
  · intro ht
    cases hm : s.mphase with rw [hm] at h hkept
    | update =>
      obtain ⟨-, rfl⟩ := inPhase_next h
      exact absurd rfl ht
    | render =>
      obtain ⟨-, rfl⟩ := inPhase_next h
      rfl
    | poll | tx1 | tx2 | tx3 | wait => exact hkept rfl nofun nofun nofun

theorem startsFrame_phaseInstr (p : Phase) : (phaseInstr p).startsFrame = false := by cases p <;> rfl

/-- Settles O55: the block by itself runs TICK and the rows of its phases, of which only UPDATE writes `run`, into the
phase RENDER, and only RENDER writes the brightness, with the function of `run`. -/
theorem brightnessFollowsRunState : Obligations.BrightnessFollowsRunState := by
  intro s t hport hpend hb hstep
  have hs : s.BrightnessFollows := fun hm => (hb hm).trans (by cases s.run <;> rfl)
  obtain ⟨i, hi, hexec⟩ := step_free_cases hport hpend hstep
  have hframe : i.startsFrame = false := by
    rcases hi with ⟨b0, b1, rfl⟩ | rfl
    · rfl
    · exact startsFrame_phaseInstr s.mphase
  have ht : t.BrightnessFollows := exec_brightnessFollows hexec hi hs
  exact ⟨(exec_port hexec).trans hport, (exec_pending hexec hframe).trans hpend,
    fun hm => (ht hm).trans (by cases t.run <;> rfl)⟩

end Machine

end Sys2Proof
end

section
/-! PROOFS. Statements of 20_memory.md: the peer of R66, the refusals of R69, the schedule of R73 and R75, and the trace
of R79. The shared lemmas are one on an acknowledged transaction and one on an acknowledged frame. -/

namespace Sys2Proof.Machine

/-! ### Refusals (R69) -/

theorem segmentsInRange_eq_false {p : Byte} {d : List Byte} (h : d = [] ∨ 4 < p.toNat + d.length) :
    segmentsInRange p d = false := by
  rcases h with rfl | h
  · rfl
  · simp [segmentsInRange, h]

theorem exec_sendSegments_outOfRange {p : Byte} {d : List Byte} (s : State) (h : segmentsInRange p d = false) :
    exec (.sendSegments p d) s = .refused .positionOutOfRange :=
  if_neg (by simp [h])

theorem exec_displayAt_outOfRange {p : Byte} (b : Byte) (s : State) (h : 3 < p.toNat) :
    exec (.displayAt p b) s = .refused .positionOutOfRange :=
  if_neg h.not_ge

/-- Settles O27: the two range tests fail, and the other rows are refused as written. -/
theorem outOfRangeOperationsAreRefused : Obligations.OutOfRangeOperationsAreRefused := fun s =>
  ⟨fun _ _ h => exec_sendSegments_outOfRange s (segmentsInRange_eq_false h),
    fun _ b h => exec_displayAt_outOfRange b s h, rfl, rfl, rfl, rfl⟩

/-! ### The trace only grows (R79) -/

theorem wire_prefix_wrByte (l : Link) (v : Byte) (a : Level) : l.wire <+: (l.wrByte v a).wire :=
  ⟨_, (wrByte_wire l v a).symm⟩

theorem wire_prefix_sendBytes (l : Link) (vs : List Byte) : l.wire <+: (l.sendBytes vs).wire :=
  ⟨_, (sendBytes_wire l vs).symm⟩

theorem wire_prefix_startCond (l : Link) : l.wire <+: l.startCond.wire :=
  ⟨_, (startCond_wire l).symm⟩

theorem wire_prefix_stopCond (l : Link) : l.wire <+: l.stopCond.wire :=
  ⟨stopEvents, (complete_wire (l.emitAll stopEvents)).symm⟩

theorem wire_prefix_transact (l : Link) (vs : List Byte) : l.wire <+: (l.transact vs).wire :=
  ⟨_, (transact_wire l vs).symm⟩

theorem wire_prefix_sendPending (s : State) : s.link.wire <+: (sendPending s).link.wire := by
  unfold sendPending
  split
  · exact List.prefix_rfl
  · exact wire_prefix_transact s.link _

theorem wire_prefix_startFrame (p : Byte) (d : List Byte) (s : State) : s.link.wire <+: (startFrame p d s).link.wire :=
  wire_prefix_sendPending { s with pending := s.pending ++ [.data, .addr p d, .ctrl] }

theorem wire_prefix_of_isWirePiece {i : Instr} {s t : State} (hi : i.isWirePiece = true) (h : exec i s = .next t) :
    s.link.wire <+: t.link.wire := by
  cases i with
  | start => cases h; exact wire_prefix_startCond s.link
  | stop => cases h; exact wire_prefix_stopCond s.link
  | wrbyte v k => cases h; exact wire_prefix_wrByte s.link v k
  | cmdDataAutoinc | cmdAddr | cmdCtrl | segmentByte | glyph0 | glyph1 | glyph2 | glyph3 | glyph4 | glyph5 | glyph6
  | glyph7 | glyph8 | glyph9 | glyphMinus | glyphBlank | dotFlag | overflowFrame =>
    cases h; exact wire_prefix_sendBytes s.link _
  | _ => cases hi

/-- A row that completes appends its events, or leaves the trace. -/
theorem wire_prefix_of_exec {i : Instr} {s t : State} (h : exec i s = .next t) : s.link.wire <+: t.link.wire := by
  cases exec_effect h with
  | piece hi => exact wire_prefix_of_isWirePiece hi h
  | stop => exact wire_prefix_stopCond s.link
  | txn bytes | transmitStep _ bytes => exact wire_prefix_transact s.link bytes
  | frame => exact wire_prefix_startFrame _ _ s
  | _ => simp [subStepButton]

/-- Settles O19: the step's operation or queued transaction extends the trace, and lining up levels leaves it. -/
theorem traceOnlyGrows : Obligations.TraceOnlyGrows := by
  intro s t hstep
  obtain ⟨-, u, hu, hcase⟩ := step_cases hstep
  have hwire : u.link.wire = s.link.wire := by rw [hu]
  have hprefix : u.link.wire <+: t.link.wire := by
    rcases hcase with ⟨i, hexec, -⟩ | ⟨-, rfl⟩
    · exact wire_prefix_of_exec hexec
    · exact wire_prefix_sendPending u
  obtain ⟨es, hes⟩ := hprefix
  exact ⟨es, by rw [← hwire, hes]⟩

/-! ### The block by itself (R73, R75) -/

/-- What the next step of the block by itself is. -/
theorem step_free {s : State} (hok : s.cfg.ok = true) (hport : s.port = []) :
    (∃ b0 b1, step s = exec (.tick b0 b1) { s with draws := s.draws + 1 })
      ∨ (s.pending ≠ [] ∧ step s = .next (sendPending { s with draws := s.draws + 1 }))
      ∨ (s.pending = [] ∧ s.mphase ≠ .wait
          ∧ step s = exec (phaseInstr s.mphase) { s with draws := s.draws + 1 }) := by
  have hnext := nextAction_free hok hport
  by_cases hc : (Config.freeTick s.draws || mainWaits s) = true
  · rw [freeAction, if_pos hc] at hnext
    exact .inl ⟨_, _, step_run hnext⟩
  · rw [freeAction, if_neg hc] at hnext
    rcases mainAction_cases { s with draws := s.draws + 1 } with ⟨hp, hmain⟩ | ⟨hp, hmain⟩
    · have hphase : s.mphase ≠ .wait := fun hw => hc (by simp_all [mainWaits])
      exact .inr (.inr ⟨hp, hphase, step_run (hnext.trans hmain)⟩)
    · exact .inr (.inl ⟨hp, step_send (hnext.trans hmain)⟩)

/-- The row of the present phase completes (43_scoreboard.md R230). -/
theorem exec_phaseInstr_completes {s : State} {p : Phase} (h : s.mphase = p) :
    ∃ t, exec (phaseInstr p) s = .next t := by
  cases p with
  | poll | update | render | tx1 | tx2 | tx3 | wait => exact ⟨_, inPhase_pos h⟩

/-- Settles O7: TICK and the row of the present phase complete, and so does a queued transaction. -/
theorem blockByItselfAlwaysSteps : Obligations.BlockByItselfAlwaysSteps := by
  intro s hok hport
  have hcases := step_free hok hport
  refine ⟨?_, hcases⟩
  have hexec {i : Instr} {u : State} (hstep : step s = exec i u) (hnext : ∃ t, exec i u = .next t)
      (hcfg : u.cfg = s.cfg) (hempty : u.port = []) : ∃ t, step s = .next t ∧ t.cfg = s.cfg ∧ t.port = [] := by
    obtain ⟨t, ht⟩ := hnext
    exact ⟨t, hstep.trans ht, (exec_cfg ht).trans hcfg, (exec_port ht).trans hempty⟩
  rcases hcases with ⟨b0, b1, htick⟩ | ⟨-, hsend⟩ | ⟨-, -, hmain⟩
  · exact hexec htick ⟨_, rfl⟩ rfl hport
  · exact ⟨_, hsend, by simp, by simpa using hport⟩
  · exact hexec hmain (exec_phaseInstr_completes rfl) rfl hport

/-! ### What a transaction does to the peer (R66) -/

/-- The environment has n acknowledgments lined up, before whatever other levels. -/
def Link.Acknowledges (l : Link) (n : Nat) : Prop := ∃ rest, l.dioIn = List.replicate n .low ++ rest

theorem acknowledges_of_lined_up {l : Link} {as rest : List Level} {n : Nat} (h : l.dioIn = as ++ rest)
    (hlen : as.length = n) (hlow : ∀ a ∈ as, a = .low) : l.Acknowledges n :=
  ⟨rest, by rw [h, List.eq_replicate_iff.mpr ⟨hlen, hlow⟩]⟩

/-- A transaction with its bytes acknowledged: the peer receives it, and the later acknowledgments stay lined up. -/
theorem transact_acknowledged {l : Link} {vs : List Byte} {n : Nat} {q : Peer}
    (h : l.Acknowledges (vs.length + n)) (hq : l.peer.receive vs = some q) :
    (l.transact vs).peer = q ∧ (l.transact vs).Acknowledges n := by
  obtain ⟨rest, hdio⟩ := h
  rw [List.replicate_add, List.append_assoc] at hdio
  obtain ⟨hacks, hrest⟩ := acks_lined_up hdio
  rw [List.length_replicate] at hacks hrest
  exact ⟨transact_peer (by simp [hacks]) hq, rest, (transact_dioIn l vs).trans hrest⟩

/-- The class of a command byte, bits 7:6, as a number. -/
theorem commandClass_eq {c : Byte} {k : BitVec 2} (h : c.toNat / 64 = k.toNat) : c.extractLsb' 6 2 = k := by
  have hk := k.isLt
  apply BitVec.eq_of_toNat_eq
  rw [BitVec.extractLsb'_toNat, Nat.shiftRight_eq_div_pow]
  omega

/-- A transaction whose first byte is a data command: bits 7:6 are 01. -/
theorem receive_dataCommand (q : Peer) {c : Byte} (d : List Byte) (hlo : 64 ≤ c.toNat) (hhi : c.toNat < 128) :
    q.receive (c :: d) = some { q with autoInc := decide (c.toNat / 4 % 2 = 0) } := by
  have hclass : c.extractLsb' 6 2 = 0b01 := commandClass_eq (show c.toNat / 64 = 1 by omega)
  have hmode : (!c.getLsbD 2) = decide (c.toNat / 4 % 2 = 0) := by
    rcases Nat.mod_two_eq_zero_or_one (c.toNat / 4) with h | h <;>
      simp [BitVec.getLsbD, Nat.testBit_eq_decide_div_mod_eq, h]
  rw [Peer.receive, if_pos hclass, hmode]

/-- A transaction whose first byte is a display control: bits 7:6 are 10. -/
theorem receive_displayControl (q : Peer) {c : Byte} (d : List Byte) (hlo : 128 ≤ c.toNat) (hhi : c.toNat < 192) :
    q.receive (c :: d)
      = some { q with on := decide (c.toNat / 8 % 2 = 1), bright := BitVec.ofNat 3 (c.toNat % 8) } := by
  have hclass : c.extractLsb' 6 2 = 0b10 := commandClass_eq (show c.toNat / 64 = 2 by omega)
  have hon : c.getLsbD 3 = decide (c.toNat / 8 % 2 = 1) := by
    simp [BitVec.getLsbD, Nat.testBit_eq_decide_div_mod_eq]
  have hbright : c.extractLsb' 0 3 = BitVec.ofNat 3 (c.toNat % 8) := by
    apply BitVec.eq_of_toNat_eq
    simp
  rw [Peer.receive, if_neg (by rw [hclass]; decide), if_neg (by rw [hclass]; decide), if_pos hclass, hon, hbright]

/-- A transaction whose first byte is an address command, for address p. -/
theorem receive_addressCommand (q : Peer) {p : Byte} (d : List Byte) (hp : p.toNat < 16) :
    q.receive ((0xC0 + p) :: d) = some (q.storeData (p.setWidth 4) d) := by
  have hsum : (0xC0 + p).toNat = 192 + p.toNat := by bv_omega
  have hclass : (0xC0 + p).extractLsb' 6 2 = 0b11 :=
    commandClass_eq (show (0xC0 + p).toNat / 64 = 3 by omega)
  have haddr : (0xC0 + p).extractLsb' 0 4 = p.setWidth 4 := by
    apply BitVec.eq_of_toNat_eq
    rw [BitVec.extractLsb'_toNat, BitVec.toNat_setWidth, Nat.shiftRight_zero]
    omega
  rw [Peer.receive, if_neg (by rw [hclass]; decide), if_pos hclass, haddr]

/-- Settles O31: the transaction is acknowledged, so the peer stores its bytes. -/
theorem addressTransactionStoresItsBytes : Obligations.AddressTransactionStoresItsBytes := by
  intro s p d as rest hp hwf hdio hlen hlow
  have hack : s.link.Acknowledges (((0xC0 + p) :: d).length + 0) := acknowledges_of_lined_up hdio hlen hlow
  obtain ⟨hpeer, -⟩ := transact_acknowledged hack (receive_addressCommand s.link.peer d hp)
  have haddr : (p.setWidth 4).toNat = p.toNat := (BitVec.toNat_setWidth 4 p).trans (Nat.mod_eq_of_lt hp)
  obtain ⟨hstored, hother⟩ := Peer.read_storeData hwf (p.setWidth 4) d
  rw [haddr] at hstored hother
  refine ⟨transact ((0xC0 + p) :: d) s, rfl, rfl, ?_⟩
  rw [transact_link, hpeer]
  exact ⟨hstored, hother, rfl, rfl, rfl⟩

/-- Settles O32: the transaction is acknowledged, so the peer takes the command of its first byte. -/
theorem commandTransactionsSetThePeer : Obligations.CommandTransactionsSetThePeer := by
  intro s c d as rest hdio hlen hlow
  have hack : s.link.Acknowledges ((c :: d).length + 0) := acknowledges_of_lined_up hdio hlen hlow
  refine ⟨fun hlo hhi => ?_, fun hlo hhi => ?_⟩
  · exact ⟨_, rfl, rfl, (transact_acknowledged hack (receive_dataCommand s.link.peer d hlo hhi)).1⟩
  · exact ⟨_, rfl, rfl, (transact_acknowledged hack (receive_displayControl s.link.peer d hlo hhi)).1⟩

/-! ### What a frame does to the peer (R66, R70) -/

/-- The link after the three transactions of a frame (43_scoreboard.md R246). -/
def Link.sendFrame (l : Link) (f : Frame) (brightness : BitVec 3) : Link :=
  ((l.transact [cmdDataAutoincByte]).transact (addrByte 0 :: f.toList)).transact [ctrlByte brightness]

theorem runAll_tx {s : State} (h : s.mphase = .tx1) :
    runAll [.tx1, .tx2, .tx3] s
      = .next { s with link := s.link.sendFrame s.frame s.brightness, mphase := .wait } := by
  simp [runAll, exec, execTx1, execTx2, execTx3, inPhase, h, transact, Link.sendFrame]

/-- The peer after an acknowledged frame: auto-increment mode, the frame at positions 0..3, on at the brightness. -/
def Peer.showFrame (p : Peer) (f : Frame) (brightness : BitVec 3) : Peer :=
  { Peer.storeData { p with autoInc := true } 0 f.toList with on := true, bright := brightness }

theorem receive_ctrlByte (q : Peer) (brightness : BitVec 3) :
    q.receive [ctrlByte brightness] = some { q with on := true, bright := brightness } := by
  have hon : ∀ b : BitVec 3, (ctrlByte b).getLsbD 3 = true := by decide
  have hbright : ∀ b : BitVec 3, (ctrlByte b).extractLsb' 0 3 = b := by decide
  have hclass : ∀ b : BitVec 3, (ctrlByte b).extractLsb' 6 2 = 0b10 := by decide
  rw [Peer.receive, hclass, hon, hbright]
  rfl

theorem sendFrame_acknowledged {l : Link} {n : Nat} (h : l.Acknowledges (7 + n)) (f : Frame) (brightness : BitVec 3) :
    (l.sendFrame f brightness).peer = l.peer.showFrame f brightness
      ∧ (l.sendFrame f brightness).Acknowledges n := by
  have h1 : l.Acknowledges ([cmdDataAutoincByte].length + ((addrByte 0 :: f.toList).length + (1 + n))) := by
    have hcount : 1 + (5 + (1 + n)) = 7 + n := by omega
    exact hcount ▸ h
  obtain ⟨hp1, h2⟩ := transact_acknowledged (q := { l.peer with autoInc := true }) h1 rfl
  obtain ⟨hp2, h3⟩ := transact_acknowledged (q := Peer.storeData { l.peer with autoInc := true } 0 f.toList) h2
    (by rw [hp1]; rfl)
  exact transact_acknowledged h3 (by rw [hp2]; exact receive_ctrlByte _ brightness)

section ShowFrame

variable {p : Peer} (h : Memory.wf p.disp = true) (f : Frame) (brightness : BitVec 3)
include h

theorem showFrame_wf : Memory.wf (p.showFrame f brightness).disp = true :=
  Peer.storeData_wf (p := { p with autoInc := true }) h 0 f.toList

theorem read_showFrame_of_lt {k : Nat} {b : Byte} (hk : k < 4) (hb : f.toList[k]? = some b) :
    Memory.read (p.showFrame f brightness).disp k = b := by
  obtain ⟨hstored, -⟩ := Peer.read_storeData (p := { p with autoInc := true }) h 0 f.toList
  have hpos : (0 : BitVec 4).toNat + k = k := Nat.zero_add k
  have hread := hstored k b hb (by omega)
  rw [hpos] at hread
  exact hread

theorem read_showFrame_of_ge {a : Nat} (ha : 4 ≤ a) :
    Memory.read (p.showFrame f brightness).disp a = Memory.read p.disp a := by
  obtain ⟨-, hother⟩ := Peer.read_storeData (p := { p with autoInc := true }) h 0 f.toList
  exact hother a (.inr (.inl (by simpa [Quad.toList] using ha)))

end ShowFrame

/-- Settles O57: the three transactions are acknowledged, so the peer shows the frame. -/
theorem displayShowsTheFrame : Obligations.DisplayShowsTheFrame := by
  intro s as rest hm hwf hdio hlen hlow
  have hack : s.link.Acknowledges (7 + 0) := acknowledges_of_lined_up hdio hlen hlow
  obtain ⟨hpeer, -⟩ := sendFrame_acknowledged hack s.frame s.brightness
  have hread {k : Nat} {b : Byte} (hk : k < 4) (hb : s.frame.toList[k]? = some b) :
      Memory.read (s.link.peer.showFrame s.frame s.brightness).disp k = b :=
    read_showFrame_of_lt hwf s.frame s.brightness hk hb
  have h0 := hread (k := 0) (by decide) rfl
  have h1 := hread (k := 1) (by decide) rfl
  have h2 := hread (k := 2) (by decide) rfl
  have h3 := hread (k := 3) (by decide) rfl
  refine ⟨_, runAll_tx hm, ?_⟩
  simp only [hpeer, Peer.lights, h0, h1, h2, h3, and_self, implies_true, true_and, and_true]
  exact ⟨fun a ha => read_showFrame_of_ge hwf s.frame s.brightness ha, rfl, rfl⟩

/-- Showing the frame that is shown changes no byte. -/
theorem read_showFrame_showFrame {p : Peer} (h : Memory.wf p.disp = true) (f : Frame) (brightness : BitVec 3)
    (a : Nat) :
    Memory.read ((p.showFrame f brightness).showFrame f brightness).disp a
      = Memory.read (p.showFrame f brightness).disp a := by
  have hwf := showFrame_wf h f brightness
  by_cases ha : a < 4
  · have hb : f.toList[a]? = some f.toList[a] := List.getElem?_eq_getElem ha
    rw [read_showFrame_of_lt hwf f brightness ha hb, read_showFrame_of_lt h f brightness ha hb]
  · exact read_showFrame_of_ge hwf f brightness (by omega)

/-- Settles O58: both frames are acknowledged, and the peer that shows the frame is shown it again. -/
theorem sameFrameTwiceIsOnce : Obligations.SameFrameTwiceIsOnce := by
  intro s t u as rest hm hwf hdio hlen hlow ht hu
  have hack : s.link.Acknowledges (7 + (7 + 0)) := acknowledges_of_lined_up hdio hlen hlow
  obtain ⟨hpeer1, hack1⟩ := sendFrame_acknowledged hack s.frame s.brightness
  obtain ⟨hpeer2, -⟩ := sendFrame_acknowledged hack1 s.frame s.brightness
  rw [runAll_tx hm] at ht
  cases ht
  rw [runAll_tx rfl] at hu
  cases hu
  simp only [hpeer1] at hpeer2
  simp only [hpeer1, hpeer2]
  exact ⟨read_showFrame_showFrame hwf s.frame s.brightness, rfl, rfl⟩

end Sys2Proof.Machine
end

section
/-! PROOFS. Statements of 30_encoding.md: the decoder and the encoder undo each other, the step that a script's first
statement takes, and the rows whose meaning is a byte on the wire. -/

namespace Sys2Proof

/-! ### One-bit operands (log entry 17) -/

theorem decodeBit_eq_ok_iff {b : Byte} {x : Bool} : decodeBit b = .ok x ↔ encodeBit x = b := by
  revert b x; decide

theorem decodeLevel_eq_ok_iff {b : Byte} {a : Level} : decodeLevel b = .ok a ↔ encodeLevel a = b := by
  cases a <;> revert b <;> decide

theorem decodeIdx_eq_ok_iff {b : Byte} {j : Idx} : decodeIdx b = .ok j ↔ encodeIdx j = b := by
  cases j <;> revert b <;> decide

@[simp] theorem decodeBit_encodeBit (x : Bool) : decodeBit (encodeBit x) = .ok x := decodeBit_eq_ok_iff.mpr rfl
@[simp] theorem decodeLevel_encodeLevel (a : Level) : decodeLevel (encodeLevel a) = .ok a :=
  decodeLevel_eq_ok_iff.mpr rfl
@[simp] theorem decodeIdx_encodeIdx (j : Idx) : decodeIdx (encodeIdx j) = .ok j := decodeIdx_eq_ok_iff.mpr rfl

/-! ### Command bytes (R93 to R95) -/

theorem addrRow_iff (b : Byte) : b &&& 0xFC = 0xC0 ↔ 0b110000#6 ++ b.extractLsb' 0 2 = b := by
  revert b; decide

theorem ctrlRow_iff (b : Byte) : b &&& 0xF8 = 0x88 ↔ 0b10001#5 ++ b.extractLsb' 0 3 = b := by
  revert b; decide

theorem decodeCommandByte_addr (p : BitVec 2) : decodeCommandByte (0b110000#6 ++ p) = .ok (.cmdAddr p) := by
  revert p; decide

theorem decodeCommandByte_ctrl (l : BitVec 3) : decodeCommandByte (0b10001#5 ++ l) = .ok (.cmdCtrl l) := by
  revert l; decide

theorem encode_of_decodeCommandByte {b : Byte} {i : Instr} (h : decodeCommandByte b = .ok i) :
    encode i = ⟨.command, [b]⟩ := by
  unfold decodeCommandByte at h
  split_ifs at h with hdata haddr hctrl
  · cases h; rw [hdata]; rfl
  · cases h; rw [encode, (addrRow_iff b).mp haddr]
  · cases h; rw [encode, (ctrlRow_iff b).mp hctrl]

/-! ### Segment bytes (R96 to R99; log entry 18) -/

theorem pointBit_iff (b : Byte) : b &&& 0x80 = 0x80 ↔ b.getLsbD 7 = true := by
  revert b; decide

theorem dotRow_iff (b : Byte) : b &&& 0x80 = 0x80 ↔ 0b1#1 ++ b.extractLsb' 0 7 = b := by
  revert b; decide

theorem lookup_glyphRows_eq_none_iff (b : Byte) : glyphRows.lookup b = none ↔ glyphBytes.contains b = false := by
  have hbytes : glyphBytes = glyphRows.map Prod.fst := rfl
  rw [hbytes, List.lookup_eq_none_iff, List.contains_eq_any_beq, List.any_eq_false]
  simp

theorem encode_of_mem_glyphRows : ∀ r ∈ glyphRows, encode r.2 = ⟨.segment, [r.1]⟩ := by decide

theorem mem_glyphRows_of_lookup {b : Byte} {i : Instr} (h : glyphRows.lookup b = some i) : (b, i) ∈ glyphRows := by
  obtain ⟨l₁, l₂, hrows, -⟩ := List.lookup_eq_some_iff.mp h
  simp [hrows]

theorem decodeSegmentByte_of_plain {b : Byte} (h : plainSegment b = true) : decodeSegmentByte b = .segmentByte b := by
  simp only [plainSegment, Bool.and_eq_true, Bool.not_eq_true'] at h
  obtain ⟨hglyph, hpoint⟩ := h
  have hdot : ¬ b &&& 0x80 = 0x80 := fun hb => Bool.false_ne_true (hpoint.symm.trans ((pointBit_iff b).mp hb))
  rw [decodeSegmentByte, (lookup_glyphRows_eq_none_iff b).mpr hglyph]
  exact if_neg hdot

theorem decodeSegmentByte_dot (x : BitVec 7) : decodeSegmentByte (0b1#1 ++ x) = .dotFlag x := by
  revert x; decide

theorem encode_decodeSegmentByte (b : Byte) : encode (decodeSegmentByte b) = ⟨.segment, [b]⟩ := by
  unfold decodeSegmentByte
  split
  · next i hi => exact encode_of_mem_glyphRows (b, i) (mem_glyphRows_of_lookup hi)
  · split_ifs with hdot
    · rw [encode, (dotRow_iff b).mp hdot]
    · rfl

/-! ### Rows with no operand, or with an index (log entry 17) -/

theorem decodeIndexed_encodeIdx (row : Idx → Instr) (j : Idx) : decodeIndexed row [encodeIdx j] = .ok (row j) := by
  simp [decodeIndexed]

theorem encode_of_decodeNullary {row i : Instr} {f : Format} {n : Byte} {ops : List Byte}
    (hrow : encode row = ⟨f, [n]⟩) (h : decodeNullary row ops = .ok i) : encode i = ⟨f, n :: ops⟩ := by
  unfold decodeNullary at h
  split at h
  · cases h; exact hrow
  · cases h

theorem encode_of_decodeIndexed {row : Idx → Instr} {i : Instr} {f : Format} {n : Byte} {ops : List Byte}
    (hrow : ∀ j, encode (row j) = ⟨f, [n, encodeIdx j]⟩) (h : decodeIndexed row ops = .ok i) :
    encode i = ⟨f, n :: ops⟩ := by
  unfold decodeIndexed at h
  split at h
  · split at h
    · next j hj => cases h; rw [hrow, decodeIdx_eq_ok_iff.mp hj]
    · cases h
  · cases h

/-! ### The driver operations (R103) -/

theorem decodeNumberOperand_encode (v : BitVec 16) (z : Bool) :
    decodeNumberOperand [v.extractLsb' 0 8, v.extractLsb' 8 8, encodeBit z] = .ok (.displayNumber v z) := by
  have hv : v.extractLsb' 8 8 ++ v.extractLsb' 0 8 = v := BitVec.extractLsb'_append_extractLsb'
  simp [decodeNumberOperand, hv]

theorem encode_of_decodeLevelOperand {ops : List Byte} {i : Instr} (h : decodeLevelOperand ops = .ok i) :
    encode i = ⟨.driver, 0 :: ops⟩ := by
  unfold decodeLevelOperand at h
  split at h <;> cases h
  rfl

theorem encode_of_decodeFrameOperand {ops : List Byte} {i : Instr} (h : decodeFrameOperand ops = .ok i) :
    encode i = ⟨.driver, 1 :: ops⟩ := by
  unfold decodeFrameOperand at h
  split at h <;> cases h
  rfl

theorem encode_of_decodePositionOperand {ops : List Byte} {i : Instr} (h : decodePositionOperand ops = .ok i) :
    encode i = ⟨.driver, 2 :: ops⟩ := by
  unfold decodePositionOperand at h
  split at h <;> cases h
  rfl

theorem encode_of_decodeNumberOperand {ops : List Byte} {i : Instr} (h : decodeNumberOperand ops = .ok i) :
    encode i = ⟨.driver, 3 :: ops⟩ := by
  unfold decodeNumberOperand at h
  split at h
  · next lo hi z =>
    split at h
    · next x hx =>
      cases h
      have hlo : (hi ++ lo).extractLsb' 0 8 = lo := BitVec.extractLsb'_append_eq_right
      have hhi : (hi ++ lo).extractLsb' 8 8 = hi := BitVec.extractLsb'_append_eq_left
      rw [encode, hlo, hhi, decodeBit_eq_ok_iff.mp hx]
    · cases h
  · cases h

theorem encode_of_decodeDriver {bs : List Byte} {i : Instr} (h : decodeDriver bs = .ok i) :
    encode i = ⟨.driver, bs⟩ := by
  unfold decodeDriver at h
  split at h
  · cases h
  · next n ops =>
    obtain ⟨rfl, h⟩ | ⟨-, h⟩ := ite_eq_iff.mp h
    · exact encode_of_decodeLevelOperand h
    obtain ⟨rfl, h⟩ | ⟨-, h⟩ := ite_eq_iff.mp h
    · exact encode_of_decodeFrameOperand h
    obtain ⟨rfl, h⟩ | ⟨-, h⟩ := ite_eq_iff.mp h
    · exact encode_of_decodePositionOperand h
    obtain ⟨rfl, h⟩ | ⟨-, h⟩ := ite_eq_iff.mp h
    · exact encode_of_decodeNumberOperand h
    obtain ⟨rfl, h⟩ | ⟨-, h⟩ := ite_eq_iff.mp h
    · exact encode_of_decodeNullary rfl h
    obtain ⟨rfl, h⟩ | ⟨-, h⟩ := ite_eq_iff.mp h
    · exact encode_of_decodeNullary rfl h
    obtain ⟨rfl, h⟩ | ⟨-, h⟩ := ite_eq_iff.mp h
    · exact encode_of_decodeNullary rfl h
    obtain ⟨rfl, h⟩ | ⟨-, h⟩ := ite_eq_iff.mp h
    · exact encode_of_decodeNullary rfl h
    cases h

/-! ### The other formats (R90 to R92, R100 to R102; log entry 17) -/

theorem encode_of_decodeWaveform {bs : List Byte} {i : Instr} (h : decodeWaveform bs = .ok i) :
    encode i = ⟨.waveform, bs⟩ := by
  unfold decodeWaveform at h
  split_ifs at h with hstart hstop
  · cases h; rw [hstart]; rfl
  · cases h; rw [hstop]; rfl

theorem decodeByteSlot_encodeLevel (v : Byte) (k : Level) :
    decodeByteSlot [v, encodeLevel k] = .ok (.wrbyte v k) := by
  simp [decodeByteSlot]

theorem encode_of_decodeByteSlot {bs : List Byte} {i : Instr} (h : decodeByteSlot bs = .ok i) :
    encode i = ⟨.byteSlot, bs⟩ := by
  unfold decodeByteSlot at h
  split at h
  · split at h
    · next a ha => cases h; rw [encode, decodeLevel_eq_ok_iff.mp ha]
    · cases h
  · cases h

theorem encode_of_decodeTransaction {bs : List Byte} {i : Instr} (h : decodeTransaction bs = .ok i) :
    encode i = ⟨.transaction, bs⟩ := by
  unfold decodeTransaction at h
  split at h <;> cases h
  rfl

theorem encode_of_decodeFrame {bs : List Byte} {i : Instr} (h : decodeFrame bs = .ok i) :
    encode i = ⟨.frame, bs⟩ := by
  unfold decodeFrame at h
  split at h <;> cases h
  rfl

theorem encode_of_decodeCommand {bs : List Byte} {i : Instr} (h : decodeCommand bs = .ok i) :
    encode i = ⟨.command, bs⟩ := by
  unfold decodeCommand at h
  split at h
  · exact encode_of_decodeCommandByte h
  · cases h

theorem encode_of_decodeSegment {bs : List Byte} {i : Instr} (h : decodeSegment bs = .ok i) :
    encode i = ⟨.segment, bs⟩ := by
  unfold decodeSegment at h
  split at h <;> cases h
  exact encode_decodeSegmentByte _

theorem encode_of_decodeDigit {bs : List Byte} {i : Instr} (h : decodeDigit bs = .ok i) :
    encode i = ⟨.digit, bs⟩ := by
  unfold decodeDigit at h
  split at h <;> cases h
  rfl

theorem encode_of_decodeOverflow {bs : List Byte} {i : Instr} (h : decodeOverflow bs = .ok i) :
    encode i = ⟨.overflow, bs⟩ := by
  unfold decodeOverflow at h
  split_ifs at h with hpattern
  cases h; rw [hpattern]; rfl

theorem decodeTick_encodeLevel (b0 b1 : Level) :
    decodeTick [encodeLevel b0, encodeLevel b1] = .ok (.tick b0 b1) := by
  rw [decodeTick, decodeLevel_encodeLevel, decodeLevel_encodeLevel]

theorem encode_of_decodeTick {bs : List Byte} {i : Instr} (h : decodeTick bs = .ok i) :
    encode i = ⟨.tick, bs⟩ := by
  unfold decodeTick at h
  split at h
  · split at h
    · next b0 b1 h0 h1 => cases h; rw [encode, decodeLevel_eq_ok_iff.mp h0, decodeLevel_eq_ok_iff.mp h1]
    · cases h
    · cases h
  · cases h

theorem encode_of_decodeSubStep {bs : List Byte} {i : Instr} (h : decodeSubStep bs = .ok i) :
    encode i = ⟨.subStep, bs⟩ := by
  unfold decodeSubStep at h
  split at h
  · cases h
  · next n ops =>
    obtain ⟨rfl, h⟩ | ⟨-, h⟩ := ite_eq_iff.mp h
    · exact encode_of_decodeIndexed (fun _ => rfl) h
    obtain ⟨rfl, h⟩ | ⟨-, h⟩ := ite_eq_iff.mp h
    · exact encode_of_decodeIndexed (fun _ => rfl) h
    obtain ⟨rfl, h⟩ | ⟨-, h⟩ := ite_eq_iff.mp h
    · exact encode_of_decodeIndexed (fun _ => rfl) h
    obtain ⟨rfl, h⟩ | ⟨-, h⟩ := ite_eq_iff.mp h
    · exact encode_of_decodeIndexed (fun _ => rfl) h
    obtain ⟨rfl, h⟩ | ⟨-, h⟩ := ite_eq_iff.mp h
    · exact encode_of_decodeNullary rfl h
    obtain ⟨rfl, h⟩ | ⟨-, h⟩ := ite_eq_iff.mp h
    · exact encode_of_decodeNullary rfl h
    obtain ⟨rfl, h⟩ | ⟨-, h⟩ := ite_eq_iff.mp h
    · exact encode_of_decodeIndexed (fun _ => rfl) h
    obtain ⟨rfl, h⟩ | ⟨-, h⟩ := ite_eq_iff.mp h
    · exact encode_of_decodeNullary rfl h
    obtain ⟨rfl, h⟩ | ⟨-, h⟩ := ite_eq_iff.mp h
    · exact encode_of_decodeNullary rfl h
    obtain ⟨rfl, h⟩ | ⟨-, h⟩ := ite_eq_iff.mp h
    · exact encode_of_decodeNullary rfl h
    obtain ⟨rfl, h⟩ | ⟨-, h⟩ := ite_eq_iff.mp h
    · exact encode_of_decodeNullary rfl h
    obtain ⟨rfl, h⟩ | ⟨-, h⟩ := ite_eq_iff.mp h
    · exact encode_of_decodeNullary rfl h
    cases h

theorem encode_of_decodeMainStep {bs : List Byte} {i : Instr} (h : decodeMainStep bs = .ok i) :
    encode i = ⟨.mainStep, bs⟩ := by
  unfold decodeMainStep at h
  split at h
  · split_ifs at h with hc hc hc hc hc hc hc <;> cases h <;> rw [hc] <;> rfl
  · cases h

theorem encode_of_decodeEventCode {bs : List Byte} {i : Instr} (h : decodeEventCode bs = .ok i) :
    encode i = ⟨.eventCode, bs⟩ := by
  unfold decodeEventCode at h
  split at h
  · split_ifs at h with hc hc hc <;> cases h <;> rw [hc] <;> rfl
  · cases h

theorem encode_of_decodeRunCode {bs : List Byte} {i : Instr} (h : decodeRunCode bs = .ok i) :
    encode i = ⟨.runCode, bs⟩ := by
  unfold decodeRunCode at h
  split at h
  · split_ifs at h with hc hc hc <;> cases h <;> rw [hc] <;> rfl
  · cases h

/-! ### Decode and encode agree (R110) -/

/-- Settles O11, row by row: an operation without operands is evaluated, the others are the laws of their operands. -/
theorem decodeReadsBackEveryEncoding : Obligations.DecodeReadsBackEveryEncoding := by
  intro i hwf
  cases i with
  | wrbyte v k => exact decodeByteSlot_encodeLevel v k
  | tick b0 b1 => exact decodeTick_encodeLevel b0 b1
  | txn bytes =>
    cases bytes with
    | nil => cases hwf
    | cons => rfl
  | cmdAddr p => exact decodeCommandByte_addr p
  | cmdCtrl l => exact decodeCommandByte_ctrl l
  | segmentByte => exact congrArg Except.ok (decodeSegmentByte_of_plain hwf)
  | dotFlag x => exact congrArg Except.ok (decodeSegmentByte_dot x)
  | displayNumber v z => exact decodeNumberOperand_encode v z
  | buttonEdgePressed j | buttonEdgeReleased j | buttonHoldPressed j | buttonHoldReleased j | activate j =>
    exact decodeIndexed_encodeIdx _ j
  | _ => rfl

/-- Settles O12, format by format. -/
theorem acceptedCodeIsAnEncoding : Obligations.AcceptedCodeIsAnEncoding := by
  rintro ⟨f, bs⟩ i h
  cases f with
  | waveform => exact encode_of_decodeWaveform h
  | byteSlot => exact encode_of_decodeByteSlot h
  | transaction => exact encode_of_decodeTransaction h
  | frame => exact encode_of_decodeFrame h
  | command => exact encode_of_decodeCommand h
  | segment => exact encode_of_decodeSegment h
  | digit => exact encode_of_decodeDigit h
  | overflow => exact encode_of_decodeOverflow h
  | driver => exact encode_of_decodeDriver h
  | tick => exact encode_of_decodeTick h
  | subStep => exact encode_of_decodeSubStep h
  | mainStep => exact encode_of_decodeMainStep h
  | eventCode => exact encode_of_decodeEventCode h
  | runCode => exact encode_of_decodeRunCode h

/-- Settles O10: an accepted word is the encoding of its row, and the three rejected ones are evaluated. -/
theorem wordsOfTheSpecDecode : Obligations.WordsOfTheSpecDecode :=
  have hrow {i : Instr} (hwf : i.wf = true) : decode (encode i) = .ok i := decodeReadsBackEveryEncoding i hwf
  ⟨hrow (i := .start) rfl, hrow (i := .stop) rfl, hrow (i := .wrbyte 0x8F .high) rfl, hrow (i := .cmdDataAutoinc) rfl,
    hrow (i := .cmdAddr 2) rfl, hrow (i := .cmdCtrl 5) rfl, rfl, hrow (i := .glyphMinus) rfl, hrow (i := .glyph4) rfl,
    hrow (i := .dotFlag 0b0000110) rfl, hrow (i := .overflowFrame) rfl, hrow (i := .txn [0x40]) rfl,
    hrow (i := .sendSegments 2 [0x6D]) rfl, hrow (i := .encodeDigit 7) rfl, hrow (i := .tick .low .high) rfl,
    hrow (i := .gesture) rfl, hrow (i := .displayAt 2 0x6D) rfl, hrow (i := .reservedSelect5) rfl,
    hrow (i := .tx3) rfl, rfl, hrow (i := .eventLongPress) rfl, rfl⟩

namespace Machine

/-! ### The step of a script's first statement (R108; log entry 8) -/

theorem scriptAction_run {c : Code} {i : Instr} {s : State} (rest : List Stim) (hdec : decode c = .ok i)
    (hi : s.pending = [] ∨ i.tickContext = true) : scriptAction c rest s = .run i { s with port := rest } := by
  have hready : (s.pending.isEmpty || i.tickContext) = true := by simpa using hi
  rw [scriptAction, hdec]
  exact if_pos hready

theorem tickAction_run {s : State} (b0 b1 : Level) (here rest : List Stim) (hpend : s.pending = []) :
    tickAction b0 b1 here rest s = .run (.tick b0 b1) { s with port := rest } := by
  simp [tickAction, hpend]

theorem mainAction_run {s : State} (hpend : s.pending = []) : mainAction s = .run (phaseInstr s.mphase) s := by
  simp [mainAction, hpend]

theorem step_op {s : State} {c : Code} {rest : List Stim} {i : Instr} (hok : s.cfg.ok = true)
    (hport : s.port = .op c :: rest) (hdec : decode c = .ok i) (hi : s.pending = [] ∨ i.tickContext = true) :
    step s = exec i { s with port := rest } :=
  step_run ((nextAction_script hok hport).trans (scriptAction_run rest hdec hi))

/-- A statement that takes no step is skipped. -/
theorem step_skip {s : State} {st : Stim} {rest : List Stim} (hport : s.port = st :: rest)
    (hover : portAction s (st :: rest) = portAction s rest) : step s = step { s with port := rest } := by
  have hnext : nextAction s = nextAction { s with port := rest } := by
    simp only [nextAction, hport, hover, portAction_port]
  rw [step, step, hnext]

theorem mainWaits_iff (s : State) : mainWaits s = true ↔ s.pending = [] ∧ s.mphase = .wait := by
  simp [mainWaits]

theorem step_mainToWait {s : State} {ack : List Level} {rest : List Stim} (hok : s.cfg.ok = true)
    (hport : s.port = .mainToWait ack :: rest) (hpend : s.pending = []) (hphase : s.mphase ≠ .wait) :
    step s = exec (phaseInstr s.mphase) (lineUp (mainAcks (mainSamples s) ack)
      { s with port := .mainToWait (ack.drop (mainSamples s)) :: rest }) := by
  have hgoes : ¬ mainWaits s = true := fun hw => hphase ((mainWaits_iff s).mp hw).2
  have hnext := nextAction_script hok hport
  rw [portAction_mainToWait, if_neg hgoes] at hnext
  exact step_run (hnext.trans (mainAction_run hpend))

/-- Settles O4: each clause is the action of its statement. -/
theorem stepRunsTheScriptsOperation : Obligations.StepRunsTheScriptsOperation := by
  intro s rest hok
  refine ⟨?op, ?tick, ?loop, ?mainToWait, ?skipped⟩
  case op => exact fun c i hport hdec hi => step_op hok hport hdec hi
  case tick =>
    intro b0 b1 n hport hpend
    exact step_run ((nextAction_script hok hport).trans (tickAction_run b0 b1 _ _ hpend))
  case loop =>
    intro b0 b1 n hport hpend
    exact step_run ((nextAction_script hok hport).trans (tickAction_run b0 b1 _ _ hpend))
  case mainToWait =>
    intro ack hport hpend hphase k
    have hk : mainSamples s = k := by
      cases hm : s.mphase <;> simp [mainSamples, hpend, hm, k]
    exact hk ▸ step_mainToWait hok hport hpend hphase
  case skipped =>
    rintro st hport (⟨b0, b1, rfl⟩ | ⟨b0, b1, rfl⟩ | ⟨⟨ack, rfl⟩, hpend, hphase⟩)
    · exact step_skip hport rfl
    · exact step_skip hport rfl
    · exact step_skip hport (if_pos ((mainWaits_iff s).mpr ⟨hpend, hphase⟩))

/-! ### A table word as the next step (R110; log entries 8 and 18) -/

theorem decode_fetchCode {nbits w : Nat} {i : Instr} (h : decodeTableWord nbits w = some i) :
    decode (fetchCode nbits w) = .ok i := by
  unfold decodeTableWord at h
  unfold fetchCode
  cases hcode : tableCode nbits w with
  | none => simp [hcode] at h
  | some c =>
    cases hdec : decode c with
    | error => simp [hcode, hdec] at h
    | ok => simpa [hcode, hdec] using h

/-- Settles O5: the presented word is the script's first operation, with no driver operation in progress. -/
theorem presentedWordIsTheNextStep : Obligations.PresentedWordIsTheNextStep := fun s nbits w _ hok hword =>
  step_op (s := s.withFetchWord nbits w) hok rfl (decode_fetchCode hword) (.inl rfl)

/-! ### Rows that send their bytes (R93 to R99; log entry 11) -/

theorem exec_of_rowByte {i : Instr} {b : Byte} (s : State) (h : i.rowByte = some b) :
    exec i s = .next (transmit [b] s) := by
  cases i with
  | cmdAddr p => cases h; rw [exec, execCmdAddr, addrByte_eq_append]
  | cmdCtrl l => cases h; rw [exec, execCmdCtrl, ctrlByte_eq_append]
  | dotFlag x => cases h; rw [exec, execDotFlag, withDot_eq_append]
  | cmdDataAutoinc | segmentByte | glyph0 | glyph1 | glyph2 | glyph3 | glyph4 | glyph5 | glyph6 | glyph7 | glyph8
  | glyph9 | glyphMinus | glyphBlank => cases h; rfl
  | _ => cases h

/-- Settles O21: the row transmits its one byte. -/
theorem byteRowsSendTheirByte : Obligations.ByteRowsSendTheirByte := by
  intro i b s h
  refine ⟨transmit [b] s, exec_of_rowByte s h, rfl, ?_, ?_, ?_, ?_⟩
  · simp [sendBytes_wire, Link.acks, bytesEvents]
  · exact sendBytes_lines (by simp)
  · exact sendBytes_peer s.link [b]
  · simp [sendBytes_rx, Link.acks, Reception.pushAll]

/-- Settles O22: the row transmits the four bytes, and the four levels lined up are the ones drawn. -/
theorem overflowFrameSendsItsFourBytes : Obligations.OverflowFrameSendsItsFourBytes := by
  intro s a0 a1 a2 a3 rest hdio
  obtain ⟨hacks, hrest⟩ : s.link.acks s.cfg.segOverflow.toList.length = [a0, a1, a2, a3]
      ∧ (s.link.acksTaken s.cfg.segOverflow.toList.length).dioIn = rest :=
    acks_lined_up (as := [a0, a1, a2, a3]) hdio
  refine ⟨transmit s.cfg.segOverflow.toList s, rfl, rfl, ?_, ?_, ?_⟩
  · rw [transmit_link, sendBytes_wire, hacks]
    simp [Quad.toList, bytesEvents]
  · exact (sendBytes_dioIn s.link _).trans hrest
  · exact sendBytes_peer s.link _

end Machine

end Sys2Proof
end

section
/-! PROOFS. Statements of 40_wire_protocol.md: the wire primitives and the transaction of R131 to R136, what a reader of
the two lines sees (R140), the three transactions of a driver operation (R137, R138), the idle bus (R139), and the
acknowledgments that nothing depends on (R135). -/

namespace Sys2Proof.Machine

/-! ### START, STOP and WRBYTE (R131 to R134) -/

/-- Settles O13: START's line state is `driveAll_start`. -/
theorem startAppendsItsTwoEvents : Obligations.StartAppendsItsTwoEvents := fun _ => rfl

/-- Settles O14: the two events of STOP end on the idle bus, and the peer's update keeps lines, trace and levels. -/
theorem stopLeavesTheBusIdle : Obligations.StopLeavesTheBusIdle := fun s =>
  ⟨{ s with link := s.link.stopCond }, rfl, rfl, complete_wire _, complete_lines _, complete_rx _, complete_dioIn _⟩

/-- Bit i of a byte, as the event of its slot. -/
theorem dataEvent_eq (v : Byte) (i : Nat) :
    (if v.toNat / 2 ^ i % 2 = 1 then WireEvent.d1 else .d0) = if v.getLsbD i then .d1 else .d0 := by
  simp [BitVec.getLsbD, Nat.testBit_eq_decide_div_mod_eq]

/-- Settles O15: the events are those of `byteEvents`, bit by bit. -/
theorem wrbyteAppendsItsThirtyEvents : Obligations.WrbyteAppendsItsThirtyEvents := by
  intro s v a bit
  refine ⟨{ s with link := s.link.wrByte v a }, rfl, rfl, rfl, wrByte_lines s.link v a, ?_⟩
  simp only [bit, dataEvent_eq]
  rfl

/-! ### A transaction (R136) -/

theorem exec_txn {bytes : List Byte} (s : State) (h : bytes ≠ []) : exec (.txn bytes) s = .next (transact bytes s) := by
  cases bytes with
  | nil => exact absurd rfl h
  | cons => rfl

theorem exec_txn_next {bytes : List Byte} {s t : State} (h : exec (.txn bytes) s = .next t) :
    bytes ≠ [] ∧ t = transact bytes s := by
  cases bytes with
  | nil => cases h
  | cons => cases h; exact ⟨by simp, rfl⟩

theorem txnEvents_length {vs : List Byte} {as : List Level} (h : as.length = vs.length) :
    (txnEvents vs as).length = 2 + 30 * vs.length + 4 := by
  simp only [txnEvents, List.length_append, bytesEvents_length h]
  rfl

theorem samples_append (es fs : List WireEvent) : samples (es ++ fs) = samples es ++ samples fs := by
  induction es with
  | nil => rfl
  | cons e es ih => cases e <;> simp [samples, ih]

theorem samples_slotEvents (b : Bool) : samples (slotEvents b) = [] := by cases b <;> rfl

theorem samples_byteEvents (v : Byte) (a : Level) : samples (byteEvents v a) = [a] := by
  simp [byteEvents, dataEvents, samples_append, samples_slotEvents, ackEvents, samples]

theorem samples_bytesEvents {vs : List Byte} {as : List Level} (h : as.length = vs.length) :
    samples (bytesEvents vs as) = as := by
  induction vs generalizing as with
  | nil => simpa [bytesEvents, samples, eq_comm] using h
  | cons v vs ih =>
    cases as with
    | nil => cases h
    | cons a as => simp [bytesEvents, samples_append, samples_byteEvents, ih (Nat.succ.inj h)]

/-- The samples of a transaction are the levels of its bytes. -/
theorem samples_txnEvents {vs : List Byte} {as : List Level} (h : as.length = vs.length) :
    samples (txnEvents vs as) = as := by
  simp [txnEvents, samples_append, samples_bytesEvents h, startEvents, stopEvents, samples]

theorem sendByte_lined_up {l : Link} {a : Level} {as : List Level} (h : l.dioIn = a :: as) (v : Byte) :
    l.sendByte v = { l with dioIn := as }.wrByte v a := by
  simp [Link.sendByte, Link.ackTaken, Link.ackLevel, h]

/-- WRBYTE of each byte with its level, over the levels lined up behind them, sends the bytes with the levels lined up. -/
theorem runAll_wrbytes {bytes : List Byte} {as rest : List Level} (hlen : as.length = bytes.length) (s : State)
    (l : Link) (hdio : l.dioIn = as ++ rest) (is : List Instr) :
    runAll (List.zipWith Instr.wrbyte bytes as ++ is) { s with link := { l with dioIn := rest } }
      = runAll is { s with link := l.sendBytes bytes } := by
  induction bytes generalizing as l with
  | nil =>
    obtain rfl : as = [] := List.eq_nil_of_length_eq_zero hlen
    obtain rfl : rest = l.dioIn := hdio.symm
    rfl
  | cons v bytes ih =>
    cases as with
    | nil => cases hlen
    | cons a as =>
      have hsend := sendByte_lined_up hdio v
      have hnext := ih (Nat.succ.inj hlen) (l.sendByte v) (by rw [hsend]; rfl)
      rw [hsend] at hnext
      rw [Link.sendBytes, hsend]
      exact hnext

/-- Settles O16: the first part reads off the events of a transaction, the second runs its pieces one by one. -/
theorem transactionIsStartBytesStop : Obligations.TransactionIsStartBytesStop := by
  constructor
  · intro s bytes hne
    have hlen := s.link.acks_length bytes.length
    exact ⟨transact bytes s, txnEvents bytes (s.link.acks bytes.length), exec_txn s hne, rfl, transact_lines _ _,
      transact_rx _ _, transact_wire _ _, txnEvents_length hlen, by rw [samples_txnEvents hlen, hlen]⟩
  · intro s bytes as rest hne hlen hdio
    exact ⟨transact bytes s, exec_txn s hne, runAll_wrbytes hlen s s.link.startCond hdio [.stop]⟩

/-! ### What a reader of the two lines sees (R133, R140; 20_memory.md R67) -/

theorem seeAll_append (t : Tap) (es fs : List WireEvent) : t.seeAll (es ++ fs) = (t.seeAll es).seeAll fs :=
  List.foldl_append

/-- A data slot is read as its bit. -/
theorem seeAll_slotEvents (t : Tap) (b : Bool) :
    t.seeAll (slotEvents b)
      = ⟨⟨.high, .ofBool b, .output⟩, t.bits ++ [.ofBool b], t.bytes⟩ := by
  cases b <;> simp [Tap.seeAll, slotEvents, Tap.see, Lines.drive, Level.ofBool]

/-- The acknowledgment slot ends the byte, whatever the sample. -/
theorem seeAll_ackEvents (t : Tap) (a : Level) :
    t.seeAll (ackEvents a) = ⟨⟨.high, .low, .output⟩, [], t.bytes ++ [byteOfBits t.bits]⟩ := by
  simp [Tap.seeAll, ackEvents, Tap.see, Lines.drive]

/-- Reading the bits of a byte, least significant first, gives the byte. -/
theorem byteOfBits_bits (v : Byte) :
    byteOfBits ([0, 1, 2, 3, 4, 5, 6, 7].map fun i => Level.ofBool (v.getLsbD i)) = v := by
  revert v
  decide

theorem seeAll_byteEvents {t : Tap} (h : t.bits = []) (v : Byte) (a : Level) :
    t.seeAll (byteEvents v a) = ⟨⟨.high, .low, .output⟩, [], t.bytes ++ [v]⟩ := by
  simpa [byteEvents, dataEvents, seeAll_append, seeAll_slotEvents, seeAll_ackEvents, h] using byteOfBits_bits v

theorem seeAll_bytesEvents {vs : List Byte} {as : List Level} (hlen : as.length = vs.length) {t : Tap}
    (h : t.bits = []) : (t.seeAll (bytesEvents vs as)).bytes = t.bytes ++ vs := by
  induction vs generalizing as t with
  | nil => simp [bytesEvents, Tap.seeAll]
  | cons v vs ih =>
    cases as with
    | nil => cases hlen
    | cons a as =>
      rw [bytesEvents, seeAll_append, seeAll_byteEvents h, ih (Nat.succ.inj hlen) rfl]
      simp

theorem seeAll_stopEvents_bytes (t : Tap) : (t.seeAll stopEvents).bytes = t.bytes := by
  simp [Tap.seeAll, stopEvents, Tap.see, Lines.drive]

theorem readBytes_txnEvents {vs : List Byte} {as : List Level} (h : as.length = vs.length) :
    readBytes (txnEvents vs as) = vs := by
  have hstart : Tap.seeAll ⟨Lines.idleBus, [], []⟩ startEvents = ⟨⟨.low, .low, .output⟩, [], []⟩ := by decide
  rw [readBytes, txnEvents, seeAll_append, seeAll_append, seeAll_stopEvents_bytes, hstart, seeAll_bytesEvents h rfl]
  rfl

/-- The known levels of the released data line in the level view. -/
def releasedLevels (l : Lines) (es : List WireEvent) : List Level :=
  (levelView l es).filterMap fun v => if v.lines.dioDir = .input then v.data else none

/-- Only DZ releases a driven data line. -/
theorem drive_dioDir {l : Lines} (h : l.dioDir = .output) {e : WireEvent} (he : e ≠ .dz) :
    (l.drive e).dioDir = .output := by
  cases e with
  | dz => exact absurd rfl he
  | d0 | d1 => rfl
  | c0 | c1 | w | s => exact h

theorem driveAll_dioDir {l : Lines} (h : l.dioDir = .output) {es : List WireEvent} (hes : .dz ∉ es) :
    (l.driveAll es).dioDir = .output := by
  induction es generalizing l with
  | nil => exact h
  | cons e es ih =>
    obtain ⟨he, hes⟩ := List.ne_and_not_mem_of_not_mem_cons hes
    exact ih (drive_dioDir h (Ne.symm he)) hes

theorem releasedLevels_cons_of_output {l : Lines} {e : WireEvent} (h : (l.drive e).dioDir = .output)
    (es : List WireEvent) : releasedLevels l (e :: es) = releasedLevels (l.drive e) es := by
  by_cases hsame : l.drive e = l
  · simp [releasedLevels, levelView, hsame]
  · simp [releasedLevels, levelView, hsame, h]

/-- While the line stays driven the view shows no level of a released line. -/
theorem releasedLevels_append_of_output {l : Lines} (h : l.dioDir = .output) {es : List WireEvent} (hes : .dz ∉ es)
    (fs : List WireEvent) : releasedLevels l (es ++ fs) = releasedLevels (l.driveAll es) fs := by
  induction es generalizing l with
  | nil => rfl
  | cons e es ih =>
    obtain ⟨he, hes⟩ := List.ne_and_not_mem_of_not_mem_cons hes
    have hout : (l.drive e).dioDir = .output := drive_dioDir h (Ne.symm he)
    exact (releasedLevels_cons_of_output hout (es ++ fs)).trans (ih hout hes)

/-- The acknowledgment slot shows its sample: it is taken while the clock is high and the line released. -/
theorem releasedLevels_ackEvents {l : Lines} (h : l.dioDir = .output) (a : Level) (es : List WireEvent) :
    releasedLevels l (ackEvents a ++ es) = a :: releasedLevels ⟨.high, .low, .output⟩ es := by
  obtain ⟨clk, dio, dir⟩ := l
  obtain rfl : dir = .output := h
  cases clk <;> cases dio <;> rfl

theorem dz_notMem_slotEvents (b : Bool) : .dz ∉ slotEvents b := by cases b <;> decide

theorem dz_notMem_dataEvents (v : Byte) : .dz ∉ dataEvents v := by
  simp [dataEvents, dz_notMem_slotEvents]

theorem releasedLevels_byteEvents {l : Lines} (h : l.dioDir = .output) (v : Byte) (a : Level) (es : List WireEvent) :
    releasedLevels l (byteEvents v a ++ es) = a :: releasedLevels ⟨.high, .low, .output⟩ es := by
  have hdata := dz_notMem_dataEvents v
  rw [byteEvents, List.append_assoc, releasedLevels_append_of_output h hdata,
    releasedLevels_ackEvents (driveAll_dioDir h hdata)]

theorem releasedLevels_bytesEvents {vs : List Byte} {as : List Level} (hlen : as.length = vs.length) {l : Lines}
    (h : l.dioDir = .output) : releasedLevels l (bytesEvents vs as ++ stopEvents) = as := by
  induction vs generalizing as l with
  | nil =>
    obtain rfl : as = [] := List.eq_nil_of_length_eq_zero hlen
    exact releasedLevels_append_of_output h (by decide : .dz ∉ stopEvents) []
  | cons v vs ih =>
    cases as with
    | nil => cases hlen
    | cons a as =>
      rw [bytesEvents, List.append_assoc, releasedLevels_byteEvents h, ih (Nat.succ.inj hlen) rfl]

theorem releasedLevels_txnEvents {vs : List Byte} {as : List Level} (h : as.length = vs.length) :
    releasedLevels Lines.idleBus (txnEvents vs as) = as := by
  rw [txnEvents, List.append_assoc, releasedLevels_append_of_output rfl (by decide), driveAll_start]
  exact releasedLevels_bytesEvents h rfl

/-- Settles O17: the events are those of a transaction with the levels drawn, and both readers go through them byte by
byte. -/
theorem bytesAreReadBackFromTheWire : Obligations.BytesAreReadBackFromTheWire := by
  intro s t bytes es hexec hwire
  obtain ⟨-, rfl⟩ := exec_txn_next hexec
  have hlen := s.link.acks_length bytes.length
  obtain rfl : txnEvents bytes (s.link.acks bytes.length) = es :=
    List.append_cancel_left ((transact_wire s.link bytes).symm.trans hwire)
  exact ⟨readBytes_txnEvents hlen, (releasedLevels_txnEvents hlen).trans (samples_txnEvents hlen).symm⟩

/-! ### A driver operation is three transactions (R137, R138) -/

theorem ctrlByte_eq_add (l : BitVec 3) : ctrlByte l = 0x88 + l.setWidth 8 := by
  simp [ctrlByte, cmdCtrlBase, displayOn]

/-- Settles O25: with an empty queue, beginning a frame is `startFrame_eq`. -/
theorem displayOperationsStartTheirFrame : Obligations.DisplayOperationsStartTheirFrame := by
  intro s hpend started
  have hstart (p : Byte) (d : List Byte) : startFrame p d s = started p d := startFrame_eq p d hpend
  refine ⟨fun p d hlo hhi => ?_, fun f0 f1 f2 f3 => congrArg _ (hstart 0 _), fun p b hp => ?_,
    congrArg _ (hstart 0 _), fun v z => congrArg _ (hstart 0 _)⟩
  · have hrange : segmentsInRange p d = true := by simp [segmentsInRange, hlo, hhi]
    exact (if_pos hrange).trans (congrArg _ (hstart p d))
  · exact (if_pos hp).trans (congrArg _ (hstart p [b]))

theorem mainAction_send {s : State} (hpend : s.pending ≠ []) : mainAction s = .send s := by
  simp [mainAction, hpend]

theorem scriptAction_wait {c : Code} {i : Instr} {s : State} (rest : List Stim) (hdec : decode c = .ok i)
    (hi : i.tickContext = false) (hpend : s.pending ≠ []) :
    scriptAction c rest s = .send { s with port := .op c :: rest } := by
  simp [scriptAction, hdec, hi, hpend]

theorem tickAction_wait {s : State} (b0 b1 : Level) (here rest : List Stim) (hpend : s.pending ≠ []) :
    tickAction b0 b1 here rest s = .send { s with port := here } := by
  simp [tickAction, hpend]

/-- A statement of the script that waits lets the next transaction be sent, and stays. -/
theorem step_wait {s : State} {st : Stim} {rest : List Stim} (hok : s.cfg.ok = true) (hport : s.port = st :: rest)
    (hwait : portAction s (st :: rest) = .send { s with port := st :: rest }) : step s = .next (sendPending s) := by
  have hsend := (nextAction_script hok hport).trans hwait
  rw [← hport] at hsend
  exact step_send hsend

theorem step_main_pending {s : State} {rest : List Stim} {p : Pending} {ps : List Pending} (hok : s.cfg.ok = true)
    (hport : s.port = .main :: rest) (hpend : s.pending = p :: ps) :
    step s = .next { s with
      port := rest, pending := ps, link := s.link.transact (pendingBytes s.brightness p) } := by
  have hsend : mainAction { s with port := rest } = .send { s with port := rest } := mainAction_send (by simp [hpend])
  exact (step_send ((nextAction_script hok hport).trans hsend)).trans
    (congrArg _ (sendPending_cons (s := { s with port := rest }) hpend))

theorem step_mainToWait_pending {s : State} {ack : List Level} {rest : List Stim} {p : Pending} {ps : List Pending}
    (hok : s.cfg.ok = true) (hport : s.port = .mainToWait ack :: rest) (hpend : s.pending = p :: ps) :
    let bytes := pendingBytes s.brightness p
    step s = .next { s with
      port := .mainToWait (ack.drop bytes.length) :: rest
      pending := ps
      link := Link.transact { s.link with dioIn := mainAcks bytes.length ack ++ s.link.dioIn } bytes } := by
  intro bytes
  have hgoes : ¬ mainWaits s = true := by simp [mainWaits, hpend]
  have hsamples : mainSamples s = bytes.length := by simp [mainSamples, hpend, bytes]
  have hnext := nextAction_script hok hport
  rw [portAction_mainToWait, if_neg hgoes, mainToWaitAction, hsamples, mainAction_send (by simp [hpend])] at hnext
  exact (step_send hnext).trans (congrArg _ (sendPending_cons hpend))

/-- Settles O6: a statement that waits, and an `M`, send the transaction at the head of the queue. -/
theorem scriptWaitsForTheDriverOperation : Obligations.ScriptWaitsForTheDriverOperation := by
  intro s st rest p ps hok hport hpend bytes
  have hbytes : pendingBytes s.brightness p = bytes := by
    cases p with
    | data | addr => rfl
    | ctrl => exact congrArg (fun b => [b]) (ctrlByte_eq_add s.brightness)
  have hne : s.pending ≠ [] := by simp [hpend]
  constructor
  · intro hst
    have hwait : portAction s (st :: rest) = .send { s with port := st :: rest } := by
      rcases hst with ⟨c, i, rfl, hdec, hi⟩ | ⟨b0, b1, n, rfl⟩ | ⟨b0, b1, n, rfl⟩
      · exact scriptAction_wait rest hdec hi hne
      · exact tickAction_wait b0 b1 _ _ hne
      · exact tickAction_wait b0 b1 _ _ hne
    rw [step_wait hok hport hwait, sendPending_cons hpend, hbytes]
  · rintro ack rfl
    exact hbytes ▸ step_mainToWait_pending hok hport hpend

/-- Settles O26: SENDSEGMENTS sends the data command and queues the rest, and each `main` sends the head of the queue. -/
theorem frameIsThreeTransactions : Obligations.FrameIsThreeTransactions := by
  intro s p d rest hok hpend hlo hhi hport
  obtain ⟨hexec, -⟩ := displayOperationsStartTheirFrame { s with port := .main :: .main :: rest } hpend
  have hstep1 := (step_op hok hport rfl (.inl hpend)).trans (hexec p d hlo hhi)
  refine ⟨_, _, _, hstep1, step_main_pending hok rfl rfl, step_main_pending hok rfl rfl, ?_⟩
  simp [pendingBytes, addrByte, cmdAddrBase, ctrlByte_eq_add, hpend]

/-! ### The bus is idle between steps (R139) -/

theorem busIdle_transact (bytes : List Byte) (s : State) : (transact bytes s).busIdle :=
  ⟨transact_lines s.link bytes, transact_rx s.link bytes⟩

theorem busIdle_sendPending {s : State} (h : s.busIdle) : (sendPending s).busIdle := by
  unfold sendPending
  split
  · exact h
  · exact busIdle_transact _ _

theorem busIdle_startFrame {s : State} (h : s.busIdle) (p : Byte) (d : List Byte) : (startFrame p d s).busIdle :=
  busIdle_sendPending (s := { s with pending := s.pending ++ [.data, .addr p d, .ctrl] }) h

theorem exec_busIdle {i : Instr} {s t : State} (hi : i.isWirePiece = false) (h : s.busIdle)
    (hexec : exec i s = .next t) : t.busIdle := by
  cases exec_effect hexec with
  | piece hp => rw [hp] at hi; cases hi
  | stop => cases hi
  | txn bytes | transmitStep _ bytes => exact busIdle_transact bytes s
  | frame => exact busIdle_startFrame h _ _
  | _ => simpa [State.busIdle, subStepButton] using h

theorem isWirePiece_phaseInstr (p : Phase) : (phaseInstr p).isWirePiece = false := by cases p <;> rfl

/-- Settles O20: a step of the block by itself runs TICK, the row of its phase, or a whole transaction. -/
theorem busIsIdleBetweenSteps : Obligations.BusIsIdleBetweenSteps := by
  refine ⟨fun i s t hi h hexec => exec_busIdle hi h hexec, fun s t hport h hstep => ?_⟩
  have hdrawn : ({ s with draws := s.draws + 1 } : State).busIdle := h
  rcases step_free (step_cases hstep).1 hport with ⟨b0, b1, htick⟩ | ⟨-, hsend⟩ | ⟨-, -, hmain⟩
  · exact exec_busIdle rfl hdrawn (htick.symm.trans hstep)
  · cases hsend.symm.trans hstep
    exact busIdle_sendPending hdrawn
  · exact exec_busIdle (isWirePiece_phaseInstr s.mphase) hdrawn (hmain.symm.trans hstep)

/-! ### Acknowledgments are discarded (R135) -/

/-- The link as a spectator of the lines sees it: the line registers, and the trace up to the values of its samples. -/
def Link.SameTrace (l m : Link) : Prop := l.lines = m.lines ∧ l.wire.map eraseAck = m.wire.map eraseAck

theorem Link.SameTrace.emitAll {l m : Link} (h : l.SameTrace m) {es fs : List WireEvent}
    (hlines : l.lines.driveAll es = m.lines.driveAll fs) (herase : es.map eraseAck = fs.map eraseAck) :
    (l.emitAll es).SameTrace (m.emitAll fs) := by
  obtain ⟨-, hwire⟩ := h
  exact ⟨hlines, by simp [Link.emitAll, hwire, herase]⟩

theorem Link.SameTrace.startCond {l m : Link} (h : l.SameTrace m) : l.startCond.SameTrace m.startCond :=
  h.emitAll (by simp) rfl

theorem Link.SameTrace.wrByte {l m : Link} (h : l.SameTrace m) (v : Byte) (a b : Level) :
    (l.wrByte v a).SameTrace (m.wrByte v b) :=
  h.emitAll (by simp) (byteEvents_eraseAck v a b)

theorem Link.SameTrace.ackTaken {l m : Link} (h : l.SameTrace m) : l.ackTaken.SameTrace m.ackTaken := by
  simpa [Link.SameTrace] using h

theorem Link.SameTrace.sendBytes {l m : Link} (h : l.SameTrace m) (vs : List Byte) :
    (l.sendBytes vs).SameTrace (m.sendBytes vs) := by
  induction vs generalizing l m with
  | nil => exact h
  | cons v vs ih => exact ih (h.ackTaken.wrByte v l.ackLevel m.ackLevel)

theorem Link.SameTrace.stopCond {l m : Link} (h : l.SameTrace m) : l.stopCond.SameTrace m.stopCond := by
  have hstop : (l.emitAll stopEvents).SameTrace (m.emitAll stopEvents) := h.emitAll (by simp) rfl
  simpa [Link.SameTrace, Link.stopCond] using hstop

theorem Link.SameTrace.transact {l m : Link} (h : l.SameTrace m) (vs : List Byte) :
    (l.transact vs).SameTrace (m.transact vs) :=
  (h.startCond.sendBytes vs).stopCond

/-- The state with another link. -/
def State.withLink (s : State) (l : Link) : State := { s with link := l }

theorem sameButAck_iff {s s' : State} :
    sameButAck s s' ↔ s = s'.withLink s.link ∧ s.link.SameTrace s'.link := Iff.rfl

theorem sameButAck_withLink (t : State) {l m : Link} (h : l.SameTrace m) :
    sameButAck (t.withLink l) (t.withLink m) :=
  ⟨rfl, h⟩

/-! ### The tick context and UPDATE do not read the link (60_exceptions.md R280) -/

theorem wake_withLink (s : State) (l : Link) : wake (s.withLink l) = (wake s).withLink l := by
  cases hm : s.mphase <;> simp [wake, State.withLink, hm]

theorem latch_withLink (b : Idx) (e : ButtonEvent) (s : State) (l : Link) :
    latch b e (s.withLink l) = (latch b e s).withLink l := by
  cases e <;> rfl

theorem subStepButton_withLink (b : Idx) (r : Press × ButtonEvent) (s : State) (l : Link) :
    subStepButton b r (s.withLink l) = (subStepButton b r s).withLink l :=
  latch_withLink b r.2 (setPress b r.1 s) l

theorem applyGesture_withLink (s : State) (l : Link) : applyGesture (s.withLink l) = (applyGesture s).withLink l := by
  have hfires : gestureFires (s.withLink l) = gestureFires s := rfl
  simp only [applyGesture, hfires]
  split <;> rfl

theorem applyTimeout_withLink (s : State) (l : Link) : applyTimeout (s.withLink l) = (applyTimeout s).withLink l := by
  have hdue : timeoutDue (s.withLink l) = timeoutDue s := rfl
  simp only [applyTimeout, hdue]
  split <;> rfl

theorem handleEvent_withLink (j : Idx) (e : ButtonEvent) (s : State) (l : Link) :
    handleEvent j e (s.withLink l) = (handleEvent j e s).withLink l := by
  simp only [handleEvent, State.withLink]
  cases s.run.side <;> rfl

theorem handleSnap_withLink (j : Idx) (s : State) (l : Link) :
    handleSnap j (s.withLink l) = (handleSnap j s).withLink l := by
  have hsnap : (s.withLink l).snapEvt = s.snapEvt := rfl
  simp only [handleSnap, hsnap]
  cases s.snapEvt.get j with
  | none => rfl
  | click | longPress => exact handleEvent_withLink j _ s l

theorem updateBody_withLink (s : State) (l : Link) : updateBody (s.withLink l) = (updateBody s).withLink l := by
  have hreset : (if (s.withLink l).snapReset then applyReset (s.withLink l) else s.withLink l)
      = (if s.snapReset then applyReset s else s).withLink l := by
    have hsnap : (s.withLink l).snapReset = s.snapReset := rfl
    simp only [hsnap]
    split <;> rfl
  simp only [updateBody, hreset, handleSnap_withLink, applyTimeout_withLink]

/-! ### Every row answers alike whatever the acknowledgments (R135; 60_exceptions.md R271) -/

/-- An answer, as a function of the link, that does not depend on acknowledgments: whatever the link, the same refusal,
or the same state with the link after one operation that keeps equal traces equal. -/
inductive AnswersAlike (f : Link → Host.Outcome State Fault Refusal) : Prop
  | next (t : State) (op : Link → Link) (hop : ∀ {l m : Link}, l.SameTrace m → (op l).SameTrace (op m))
      (h : ∀ l, f l = .next (t.withLink (op l)))
  | refused (r : Refusal) (h : ∀ l, f l = .refused r)

namespace AnswersAlike

/-- The row leaves the link. -/
theorem kept {f : Link → Host.Outcome State Fault Refusal} (t : State) (h : ∀ l, f l = .next (t.withLink l)) :
    AnswersAlike f :=
  .next t id id h

theorem guarded {f : Link → Host.Outcome State Fault Refusal} {c : Prop} [Decidable c] {r : Refusal}
    (h : AnswersAlike f) : AnswersAlike fun l => if c then f l else .refused r := by
  by_cases hc : c
  · simpa only [if_pos hc] using h
  · exact .refused r fun _ => if_neg hc

theorem transmit (bytes : List Byte) (s : State) : AnswersAlike fun l => .next (transmit bytes (s.withLink l)) :=
  .next s (·.sendBytes bytes) (fun h => h.sendBytes bytes) fun _ => rfl

theorem transact (bytes : List Byte) (s : State) : AnswersAlike fun l => .next (transact bytes (s.withLink l)) :=
  .next s (·.transact bytes) (fun h => h.transact bytes) fun _ => rfl

theorem startFrame (p : Byte) (d : List Byte) (s : State) :
    AnswersAlike fun l => .next (startFrame p d (s.withLink l)) := by
  obtain ⟨q, qs, hqueue⟩ : ∃ q qs, s.pending ++ [.data, .addr p d, .ctrl] = q :: qs :=
    List.exists_cons_of_ne_nil (by simp)
  refine .next { s with pending := qs } (·.transact (pendingBytes s.brightness q)) (fun h => h.transact _) fun l => ?_
  exact congrArg _
    (sendPending_cons (s := { s.withLink l with pending := s.pending ++ [.data, .addr p d, .ctrl] }) hqueue)

theorem buttonRow (policy : BtnPolicy) (b : Idx) (level : Level) (s : State) :
    AnswersAlike fun l => exec (buttonRow policy b level) (s.withLink l) := by
  by_cases hp : s.cfg.policy = policy
  · subst hp
    exact .kept (subStepButton b (buttonStep s.cfg (pressed level) (press s b)) s) fun l =>
      (exec_buttonRow b level (s.withLink l)).trans (congrArg _ (subStepButton_withLink b _ s l))
  · exact .refused .policyNotSelected fun l => exec_buttonRow_of_ne b level hp

theorem editOnly (j : Idx) (e : ButtonEvent) (s : State) : AnswersAlike fun l => editOnly j e (s.withLink l) := by
  cases hside : s.run.side with
  | none => exact .refused .notEnabled fun l => by simp [Machine.editOnly, State.withLink, hside]
  | some sd => exact .kept (editActive j e sd s) fun l => by simp [Machine.editOnly, State.withLink, hside, editActive]

theorem longPressEdit (j : Idx) (s : State) : AnswersAlike fun l => longPressEdit j (s.withLink l) := by
  cases hp : s.cfg.policy with
  | edge => simpa [Machine.longPressEdit, State.withLink, hp] using editOnly j .longPress s
  | hold => exact .refused .policyNotSelected fun l => by simp [Machine.longPressEdit, State.withLink, hp]

theorem activate (j : Idx) (s : State) : AnswersAlike fun l => execActivate j (s.withLink l) := by
  cases hr : s.run with
  | idle => exact .kept (Machine.activate j s) fun l => by simp [execActivate, State.withLink, hr, Machine.activate]
  | activeLeft | activeRight => exact .refused .notEnabled fun l => by simp [execActivate, State.withLink, hr]

theorem tick (b0 b1 : Level) (s : State) : AnswersAlike fun l => exec (.tick b0 b1) (s.withLink l) := by
  refine .kept (wake (applyGesture
    (latch .one (buttonStep s.cfg (pressed b1) (press s .one)).2
      (latch .zero (buttonStep s.cfg (pressed b0) (press s .zero)).2
        (setPress .one (buttonStep s.cfg (pressed b1) (press s .one)).1
          (setPress .zero (buttonStep s.cfg (pressed b0) (press s .zero)).1 (clockIncrement s))))))) fun l => ?_
  simp only [← wake_withLink, ← applyGesture_withLink, ← latch_withLink]
  rfl

end AnswersAlike

theorem exec_answersAlike (i : Instr) (s : State) : AnswersAlike fun l => exec i (s.withLink l) := by
  cases i with
  | start => exact .next s Link.startCond Link.SameTrace.startCond fun _ => rfl
  | stop => exact .next s Link.stopCond Link.SameTrace.stopCond fun _ => rfl
  | wrbyte v a => exact .next s (·.wrByte v a) (fun h => h.wrByte v a a) fun _ => rfl
  | txn bytes =>
    cases bytes with
    | nil => exact .refused .emptyTransaction fun _ => rfl
    | cons b rest => exact .transact (b :: rest) s
  | sendSegments p d => exact .guarded (c := segmentsInRange p d) (.startFrame p d s)
  | cmdDataAutoinc | cmdAddr | cmdCtrl | segmentByte | glyph0 | glyph1 | glyph2 | glyph3 | glyph4 | glyph5 | glyph6
  | glyph7 | glyph8 | glyph9 | glyphMinus | glyphBlank | dotFlag => exact .transmit _ s
  | overflowFrame => exact .transmit s.cfg.segOverflow.toList s
  | encodeDigit | eventNone | eventClick | eventLongPress | runIdle | runActiveLeft | runActiveRight =>
    exact .kept (deliver _ s) fun _ => rfl
  | setBrightness level =>
    exact .guarded (c := level.toNat ≤ 7) (.kept (storeBrightness (level.extractLsb' 0 3) s) fun _ => rfl)
  | displayRaw f => exact .startFrame 0 f.toList s
  | displayAt p b => exact .guarded (c := p.toNat ≤ 3) (.startFrame p [b] s)
  | displayNumber v z => exact .startFrame 0 (format s.cfg v z).toList s
  | clear => exact .startFrame 0 _ s
  | reservedSelect5 | reservedSelect6 | reservedSelect7 => exact .refused _ fun _ => rfl
  | tick b0 b1 => exact .tick b0 b1 s
  | buttonEdgePressed b => exact .buttonRow .edge b .low s
  | buttonEdgeReleased b => exact .buttonRow .edge b .high s
  | buttonHoldPressed b => exact .buttonRow .hold b .low s
  | buttonHoldReleased b => exact .buttonRow .hold b .high s
  | gesture => exact .kept (applyGesture s) fun l => congrArg _ (applyGesture_withLink s l)
  | poll =>
    exact .guarded (c := s.mphase = .poll) (.kept
      { s with
        snapReset := s.resetReq
        resetReq := false
        snapEvt := s.evt
        evt := ⟨.none, .none⟩
        snapNow := s.now
        mphase := .update } fun _ => rfl)
  | update =>
    refine .guarded (c := s.mphase = .update) (.kept { updateBody s with mphase := .render } fun l => ?_)
    rw [updateBody_withLink]
    rfl
  | render =>
    exact .guarded (c := s.mphase = .render) (.kept
      { storeBrightness (brightnessOf s.cfg s.run) s with
        frame := renderFrame s.cfg s.run s.snapNow s.score
        mphase := .tx1 } fun _ => rfl)
  | tx1 => exact .guarded (c := s.mphase = .tx1) (.transact _ { s with mphase := .tx2 })
  | tx2 => exact .guarded (c := s.mphase = .tx2) (.transact (addrByte 0 :: s.frame.toList) { s with mphase := .tx3 })
  | tx3 => exact .guarded (c := s.mphase = .tx3) (.transact [ctrlByte s.brightness] { s with mphase := .wait })
  | wait => exact .guarded (c := s.mphase = .wait) (.kept s fun _ => rfl)
  | applyReset => exact .kept (applyReset s) fun _ => rfl
  | activate j => exact .activate j s
  | click0Dec => exact .editOnly .zero .click s
  | click1Inc => exact .editOnly .one .click s
  | longPress0Floor => exact .longPressEdit .zero s
  | longPress1Snap => exact .longPressEdit .one s
  | timeout => exact .kept (applyTimeout s) fun l => congrArg _ (applyTimeout_withLink s l)

/-- Settles O18: the two states differ in the link only, and every row answers alike over the two links. -/
theorem acknowledgmentsAreDiscarded : Obligations.AcknowledgmentsAreDiscarded := by
  intro i s s' hsame
  obtain ⟨hs, htrace⟩ := sameButAck_iff.mp hsame
  have halike := exec_answersAlike i s'
  refine ⟨fun t ht => ?next, fun r hr => ?refused, fun v a b => ?wrbyte⟩
  case next =>
    rw [hs] at ht
    cases halike with
    | next u op hop hexec =>
      cases (hexec s.link).symm.trans ht
      exact ⟨_, hexec s'.link, sameButAck_withLink u (hop htrace)⟩
    | refused r hexec => cases (hexec s.link).symm.trans ht
  case refused =>
    rw [hs] at hr
    cases halike with
    | next u op hop hexec => cases (hexec s.link).symm.trans hr
    | refused r' hexec =>
      cases (hexec s.link).symm.trans hr
      exact hexec s'.link
  case wrbyte =>
    rw [hs]
    exact ⟨_, _, rfl, rfl, sameButAck_withLink s' (htrace.wrByte v a b)⟩

end Sys2Proof.Machine
end

section
/-! PROOFS. Statements of 41_display_driver.md: the values of the pure rows (R160), setBrightness (R162), and the frame
that format answers for a number in range and out of it (R166 to R170). -/

namespace Sys2Proof.Machine

/-! ### Digits (R160; 30_encoding.md R98, R99) -/

/-- The digit table with minus past its end: the independent reading of ENCODEDIGIT. -/
theorem encodeDigitByte_eq_getD (d : Byte) : encodeDigitByte d = segRom.toList.getD d.toNat segMinus := by
  by_cases hd : d.toNat < 10
  · simp [encodeDigitByte, memReadSegRom, hd]
  · simp [encodeDigitByte, hd]

theorem digitByte_eq_getD {g : Nat} (hg : g < 10) : digitByte g = segRom.toList.getD g segMinus := by
  rw [digitByte, encodeDigitByte_eq_getD, BitVec.toNat_ofNat, Nat.mod_eq_of_lt (by omega)]

theorem digitByte_ne_segMinus {g : Nat} (hg : g < 10) : digitByte g ≠ segMinus :=
  (by decide : ∀ d : Fin 10, digitByte d ≠ segMinus) ⟨g, hg⟩

/-! ### The pure rows and setBrightness (R160, R162; 30_encoding.md R100, R101) -/

/-- Settles O23: a code row's byte is its code widened, ENCODEDIGIT's is `encodeDigitByte_eq_getD`. -/
theorem pureRowsDeliverTheirValue : Obligations.PureRowsDeliverTheirValue := by
  intro i v s h
  cases i with
  | encodeDigit d =>
    cases h
    rw [exec, execEncodeDigit, encodeDigitByte_eq_getD]
    rfl
  | eventNone | eventClick | eventLongPress | runIdle | runActiveLeft | runActiveRight => cases h; rfl
  | _ => cases h

/-- Settles O24: the two branches of the range check; the low three bits of a byte are its value modulo 8. -/
theorem setBrightnessStoresTheLevel : Obligations.SetBrightnessStoresTheLevel := fun _ _ =>
  ⟨fun h => if_pos h, fun h => if_neg (by omega)⟩

/-! ### Significant positions (R167) -/

/-- A digit is seen at the place of weight k or to its left exactly when the number reaches k. -/
theorem seen_place {k : Nat} (hk : 0 < k) (n : Nat) (z : Bool) :
    (z || decide (k * 10 ≤ n) || n / k % 10 != 0) = (z || decide (k ≤ n)) := by
  have hleft : k * 10 ≤ n ↔ 10 ≤ n / k := by rw [Nat.le_div_iff_mul_le hk, Nat.mul_comm]
  have hhere : k ≤ n ↔ 1 ≤ n / k := by rw [Nat.le_div_iff_mul_le hk, Nat.one_mul]
  have hdigit (q : Nat) : (10 ≤ q ∨ q % 10 ≠ 0) ↔ 1 ≤ q := by omega
  rw [Bool.eq_iff_iff]
  simp only [Bool.or_eq_true, decide_eq_true_eq, bne_iff_ne, or_assoc, hleft, hhere, hdigit]

/-- The leftmost place: nothing was seen before it. -/
theorem seen_first_place {k : Nat} (hk : 0 < k) (n : Nat) (z : Bool) :
    (z || n / k != 0) = (z || decide (k ≤ n)) := by
  have hhere : k ≤ n ↔ n / k ≠ 0 := by rw [Nat.ne_zero_iff_zero_lt, Nat.div_pos_iff]; omega
  rw [Bool.eq_iff_iff]
  simp only [hhere, Bool.or_eq_true, decide_eq_true_eq, bne_iff_ne]

theorem formatNonNegative_eq (n : Nat) (z : Bool) :
    formatNonNegative n z =
      ⟨shown (z || decide (1000 ≤ n)) (n / 1000), shown (z || decide (100 ≤ n)) (n / 100 % 10),
        shown (z || decide (10 ≤ n)) (n / 10 % 10), digitByte (n % 10)⟩ := by
  have h0 := seen_first_place (k := 1000) (by decide) n z
  have h1 := seen_place (k := 100) (by decide) n z
  have h2 := seen_place (k := 10) (by decide) n z
  simp only [formatNonNegative, h0, h1, h2]
  rfl

theorem formatNegative_eq (m : Nat) (z : Bool) :
    formatNegative m z =
      ⟨segMinus, shown (z || decide (100 ≤ m)) (m / 100), shown (z || decide (10 ≤ m)) (m / 10 % 10),
        digitByte (m % 10)⟩ := by
  have h1 := seen_first_place (k := 100) (by decide) m z
  have h2 := seen_place (k := 10) (by decide) m z
  simp only [formatNegative, h1, h2]
  rfl

/-- A position's byte, by the digit table. -/
theorem shown_eq_getD {g : Nat} (hg : g < 10) (z : Bool) (k n : Nat) :
    shown (z || decide (k ≤ n)) g = if z = true ∨ k ≤ n then segRom.toList.getD g segMinus else segBlank := by
  simp only [shown, digitByte_eq_getD hg, Bool.or_eq_true, decide_eq_true_eq]

/-! ### The three ranges of format (R166 to R170) -/

theorem format_of_out_of_range (cfg : Config) {v : BitVec 16} (z : Bool) (h : v.toInt < -999 ∨ 9999 < v.toInt) :
    format cfg v z = cfg.segOverflow :=
  if_pos h

theorem format_of_negative (cfg : Config) {v : BitVec 16} (z : Bool) (hlo : -999 ≤ v.toInt) (hneg : v.toInt < 0) :
    format cfg v z = formatNegative v.toInt.natAbs z := by
  rw [format, if_neg (by omega), if_pos hneg]

theorem format_of_nonneg (cfg : Config) {v : BitVec 16} (z : Bool) (hpos : 0 ≤ v.toInt) (hhi : v.toInt ≤ 9999) :
    format cfg v z = formatNonNegative v.toInt.toNat z := by
  rw [format, if_neg (by omega), if_neg (by omega)]

/-- R170: a frame in range has a digit in its last position. -/
theorem format_p3_of_in_range (cfg : Config) {v : BitVec 16} (z : Bool) (hlo : -999 ≤ v.toInt) (hhi : v.toInt ≤ 9999) :
    ∃ g < 10, (format cfg v z).p3 = digitByte g := by
  by_cases hneg : v.toInt < 0
  · exact ⟨v.toInt.natAbs % 10, Nat.mod_lt _ (by decide), by
      rw [format_of_negative cfg z hlo hneg, formatNegative_eq]⟩
  · exact ⟨v.toInt.toNat % 10, Nat.mod_lt _ (by decide), by
      rw [format_of_nonneg cfg z (by omega) hhi, formatNonNegative_eq]⟩

/-- Settles O28: each position is significant from its place's weight on, and its digit is below ten. -/
theorem numberShowsItsDigits : Obligations.NumberShowsItsDigits := by
  intro cfg v z hpos hhi n digit
  have hn : v.toInt.toNat = n := by rw [BitVec.toInt_eq_toNat_cond] at hpos ⊢; omega
  rw [format_of_nonneg cfg z hpos hhi, hn, formatNonNegative_eq, shown_eq_getD (by omega),
    shown_eq_getD (by omega), shown_eq_getD (by omega), digitByte_eq_getD (by omega)]
  rfl

/-- Settles O29: the minus glyph, and three positions as for O28 over the magnitude. -/
theorem negativeNumberShowsMinusAndMagnitude : Obligations.NegativeNumberShowsMinusAndMagnitude := by
  intro cfg v z hlo hneg m digit
  have hm : v.toInt.natAbs = m := by omega
  rw [format_of_negative cfg z hlo (by omega), hm, formatNegative_eq, shown_eq_getD (by omega),
    shown_eq_getD (by omega), digitByte_eq_getD (by omega)]
  rfl

/-- Settles O30: in range the last position holds a digit, and no digit's byte is minus. -/
theorem overflowIsDistinguishable : Obligations.OverflowIsDistinguishable := by
  refine ⟨fun cfg v z h => format_of_out_of_range cfg z h, rfl, fun cfg v z hlo hhi hminus => ?_⟩
  obtain ⟨g, hg, hlast⟩ := format_p3_of_in_range cfg z hlo hhi
  exact digitByte_ne_segMinus hg (hlast.symm.trans (congrArg Quad.p3 hminus))

end Sys2Proof.Machine
end

section
/-! PROOFS. Statements of 42_tick_and_buttons.md: the TICK step of R190 as its parts, the two button policies (R196 to
R201), the gesture (R202), the void flag (R204) and the summary of an isolated press (R206). The TICK is said once, by
`afterTick`; what it makes of one button is said once, by `press_afterButtons` and `evt_afterButtons`. -/

namespace Sys2Proof

theorem Duo.set_get {α : Type} (r : Duo α) (b : Idx) : r.set b (r.get b) = r := by cases b <;> rfl

namespace Machine

/-! ### ButtonStep and TICK as functions of the state (R190) -/

/-- The ButtonStep row of the selected policy for one sampled level, with its latch write (`exec_buttonRow`). -/
def stepButton (b : Idx) (level : Level) (s : State) : State :=
  subStepButton b (buttonStep s.cfg (pressed level) (press s b)) s

theorem exec_buttonRow_selected {policy : BtnPolicy} {s : State} (h : s.cfg.policy = policy) (b : Idx)
    (level : Level) : exec (buttonRow policy b level) s = .next (stepButton b level s) := by
  subst h
  exact exec_buttonRow b level s

/-- The state after the clock and both ButtonSteps of a TICK with the sampled levels `lv`. -/
def afterButtons (lv : Duo Level) (s : State) : State :=
  stepButton .one lv.at1 (stepButton .zero lv.at0 (clockIncrement s))

/-- The state after a TICK with the sampled levels `lv` (`exec_tick`). -/
def afterTick (lv : Duo Level) (s : State) : State := wake (applyGesture (afterButtons lv s))

/-- What a latch that held `old` holds after the latch write of `e` (R203). -/
def latched (old e : ButtonEvent) : ButtonEvent := if e = .none then old else e

theorem latched_none (old : ButtonEvent) : latched old .none = old := rfl

theorem none_latched (e : ButtonEvent) : latched .none e = e := by cases e <;> rfl

theorem evt_latch_same (b : Idx) (e : ButtonEvent) (s : State) :
    (latch b e s).evt.get b = latched (s.evt.get b) e := by
  cases e with
  | none => rfl
  | click | longPress => exact Duo.get_set_same _ b _

theorem evt_latch_other {b c : Idx} (h : c ≠ b) (e : ButtonEvent) (s : State) :
    (latch b e s).evt.get c = s.evt.get c := by
  cases e with
  | none => rfl
  | click | longPress => exact Duo.get_set_other _ _ h

theorem latch_setPress (b c : Idx) (e : ButtonEvent) (p : Press) (s : State) :
    latch b e (setPress c p s) = setPress c p (latch b e s) := by cases e <;> rfl

theorem press_latch (b c : Idx) (e : ButtonEvent) (s : State) : press (latch b e s) c = press s c := by simp [press]

theorem press_setPress_same (b : Idx) (p : Press) (s : State) : press (setPress b p s) b = p := by simp [press]

theorem press_setPress_other {b c : Idx} (h : c ≠ b) (p : Press) (s : State) :
    press (setPress b p s) c = press s c := by
  simp [press, Duo.get_set_other _ _ h]

@[simp] theorem stepButton_cfg (b : Idx) (level : Level) (s : State) : (stepButton b level s).cfg = s.cfg := by
  simp [stepButton, subStepButton]

@[simp] theorem stepButton_resetReq (b : Idx) (level : Level) (s : State) :
    (stepButton b level s).resetReq = s.resetReq := by
  simp [stepButton, subStepButton]

theorem press_stepButton_same (b : Idx) (level : Level) (s : State) :
    press (stepButton b level s) b = (buttonStep s.cfg (pressed level) (press s b)).1 := by
  rw [stepButton, subStepButton, press_latch, press_setPress_same]

theorem press_stepButton_other {b c : Idx} (h : c ≠ b) (level : Level) (s : State) :
    press (stepButton b level s) c = press s c := by
  rw [stepButton, subStepButton, press_latch, press_setPress_other h]

theorem evt_stepButton_same (b : Idx) (level : Level) (s : State) :
    (stepButton b level s).evt.get b
      = latched (s.evt.get b) (buttonStep s.cfg (pressed level) (press s b)).2 := by
  rw [stepButton, subStepButton, evt_latch_same, setPress_evt]

theorem evt_stepButton_other {b c : Idx} (h : c ≠ b) (level : Level) (s : State) :
    (stepButton b level s).evt.get c = s.evt.get c := by
  rw [stepButton, subStepButton, evt_latch_other h, setPress_evt]

/-- A ButtonStep writes `dur`, `void` and `evt` only. -/
theorem stepButton_changes (b : Idx) (level : Level) (s : State) :
    stepButton b level s = { s with
      dur := (stepButton b level s).dur
      voided := (stepButton b level s).voided
      evt := (stepButton b level s).evt } := by
  rw [stepButton, subStepButton, latch_changes]
  rfl

/-- The latch writes of a TICK come after both ButtonSteps, which makes no difference (R194). -/
theorem exec_tick (b0 b1 : Level) (s : State) : exec (.tick b0 b1) s = .next (afterTick ⟨b0, b1⟩ s) := by
  have hbuttons : afterButtons ⟨b0, b1⟩ s =
      latch .one (buttonStep s.cfg (pressed b1) (press s .one)).2
        (latch .zero (buttonStep s.cfg (pressed b0) (press s .zero)).2
          (setPress .one (buttonStep s.cfg (pressed b1) (press s .one)).1
            (setPress .zero (buttonStep s.cfg (pressed b0) (press s .zero)).1 (clockIncrement s)))) := by
    rw [afterButtons, stepButton, press_stepButton_other (by decide), stepButton_cfg, subStepButton, stepButton,
      subStepButton, ← latch_setPress]
    rfl
  rw [afterTick, hbuttons]
  rfl

/-- The sub-steps of a TICK are `afterButtons` and the gesture. -/
theorem runAll_tickParts (b0 b1 : Level) (s : State) :
    runAll [buttonRow s.cfg.policy .zero b0, buttonRow s.cfg.policy .one b1, .gesture] (clockIncrement s) =
      .next (applyGesture (afterButtons ⟨b0, b1⟩ s)) := by
  have hzero : exec (buttonRow s.cfg.policy .zero b0) (clockIncrement s)
      = .next (stepButton .zero b0 (clockIncrement s)) := exec_buttonRow_selected (by simp) .zero b0
  have hone : exec (buttonRow s.cfg.policy .one b1) (stepButton .zero b0 (clockIncrement s))
      = .next (afterButtons ⟨b0, b1⟩ s) := exec_buttonRow_selected (by simp) .one b1
  simp only [runAll, hzero, hone]
  rfl

/-- Settles O33: the rows run by themselves and TICK are the same functions of the state. -/
theorem tickIsItsPartsInOrder : Obligations.TickIsItsPartsInOrder := by
  intro s b0 b1
  refine ⟨_, runAll_tickParts b0 b1 s, ?_⟩
  rw [exec_tick, afterTick, wake_changes, wake_phase]

/-- What a TICK makes of `now` and `mphase`, and the registers that it leaves (R190). -/
theorem afterTick_changes (lv : Duo Level) (s : State) :
    afterTick lv s = { s with
      now := tickInc s.cfg.tickBits s.now
      dur := (afterTick lv s).dur
      voided := (afterTick lv s).voided
      evt := (afterTick lv s).evt
      resetReq := (afterTick lv s).resetReq
      mphase := if s.mphase = .wait then .poll else s.mphase } := by
  have hbuttons : ∃ dur voided evt, afterButtons lv s
      = { clockIncrement s with dur := dur, voided := voided, evt := evt } := by
    rw [afterButtons, stepButton_changes, stepButton_changes .zero]
    exact ⟨_, _, _, rfl⟩
  obtain ⟨dur, voided, evt, hbuttons⟩ := hbuttons
  rw [afterTick, wake_changes, applyGesture_changes, hbuttons]
  simp

/-- Settles O34: the frame of `afterTick`, with the wake read off phase by phase. -/
theorem tickWritesOnlyItsRegisters : Obligations.TickWritesOnlyItsRegisters := by
  intro s b0 b1
  refine ⟨_, exec_tick b0 b1 s, (afterTick_changes ⟨b0, b1⟩ s).trans ?_⟩
  cases s.mphase <;> rfl

@[simp] theorem afterTick_cfg (lv : Duo Level) (s : State) : (afterTick lv s).cfg = s.cfg := by
  rw [afterTick_changes]

/-! ### The rows of the two policies (R196, R197, R200, R201) -/

/-- A ButtonStep that leaves the void flag writes the counter only. -/
theorem setPress_voided_kept (b : Idx) (d : BitVec 16) (s : State) :
    setPress b ⟨d, s.voided.get b⟩ s = { s with dur := s.dur.set b d } := by
  simp only [setPress, Duo.set_get]

theorem add_one_eq_ofNat (d : BitVec 16) : d + 1 = BitVec.ofNat 16 (d.toNat + 1) :=
  BitVec.eq_of_toNat_eq (by simp)

theorem edgePressed_eq (d : BitVec 16) (voided : Bool) :
    edgePressed ⟨d, voided⟩ = (⟨BitVec.ofNat 16 (min (d.toNat + 1) 65535), voided⟩, .none) := by
  have hstep : edgePressed ⟨d, voided⟩ = (if d.toNat < 65535 then ⟨d + 1, voided⟩ else ⟨d, voided⟩, .none) := rfl
  by_cases h : d.toNat < 65535
  · rw [hstep, if_pos h, min_eq_left (by omega), add_one_eq_ofNat]
  · have hmax : d = BitVec.ofNat 16 65535 := by bv_omega
    rw [hstep, if_neg h, min_eq_right (by omega), ← hmax]

/-- Settles O35: the row's void flag is the one it read and its event is None. -/
theorem edgePressCountsUp : Obligations.EdgePressCountsUp := by
  intro s b hpol
  rw [exec, execButtonEdgePressed, hpol, press, edgePressed_eq]
  exact congrArg _ (setPress_voided_kept b _ s)

theorem edgeEvent_eq (cfg : Config) (d : BitVec 16) (voided : Bool) :
    edgeEvent cfg ⟨d, voided⟩ =
      if d.toNat = 0 ∨ voided = true then .none
      else if cfg.longPress ≤ d.toNat then .longPress
      else if cfg.debounce ≤ d.toNat then .click
      else .none := by
  have hzero : d = 0 ↔ d.toNat = 0 := BitVec.toNat_inj.symm
  unfold edgeEvent
  by_cases hd : d.toNat = 0
  · rw [if_pos (hzero.mpr hd), if_pos (.inl hd)]
  · simp only [if_neg (mt hzero.mp hd), hd, false_or]

/-- Settles O36: the latch write of each event that the release can answer. -/
theorem edgeReleaseDecidesTheEvent : Obligations.EdgeReleaseDecidesTheEvent := by
  intro s b hpol
  rw [exec, execButtonEdgeReleased, hpol]
  simp only [subStepButton, edgeReleased, press, edgeEvent_eq]
  split
  · rfl
  · split
    · rfl
    · split <;> rfl

theorem holdPressed_eq {cfg : Config} {d : BitVec 16} (voided : Bool) (hok : cfg.ok = true)
    (hbound : d.toNat < cfg.holdThreshold + cfg.repeatInterval) :
    holdPressed cfg ⟨d, voided⟩ =
      if d.toNat + 1 = cfg.debounce then (⟨BitVec.ofNat 16 (d.toNat + 1), voided⟩, clickUnless voided)
      else if d.toNat + 1 = cfg.holdThreshold + cfg.repeatInterval then
        (⟨BitVec.ofNat 16 cfg.holdThreshold, voided⟩, clickUnless voided)
      else (⟨BitVec.ofNat 16 (d.toNat + 1), voided⟩, .none) := by
  obtain ⟨-, -, -, -, -, -, hmax, -⟩ := cfg.ok_iff.mp hok
  rw [holdPressed, toNat_succ_of_lt hbound hmax, add_one_eq_ofNat]

theorem latch_clickUnless (b : Idx) (voided : Bool) (s : State) :
    latch b (clickUnless voided) s = { s with evt := if voided = true then s.evt else s.evt.set b .click } := by
  cases voided <;> rfl

/-- Settles O37: in each of the three cases the row keeps the void flag it read. -/
theorem holdPressClicksAndFoldsBack : Obligations.HoldPressClicksAndFoldsBack := by
  intro s b hok hpol hbound
  simp only [exec, execButtonHoldPressed, hpol, press, holdPressed_eq _ hok hbound, subStepButton]
  split
  · rw [latch_clickUnless, setPress_voided_kept]
  · split
    · rw [latch_clickUnless, setPress_voided_kept]
    · exact congrArg _ (setPress_voided_kept b _ s)

/-- Settles O38: a release writes the press registers and its event is None. -/
theorem holdReleaseClearsThePress : Obligations.HoldReleaseClearsThePress := by
  intro s b hpol
  rw [exec, execButtonHoldReleased, hpol]
  rfl

/-! ### What a TICK makes of one button (R194) -/

theorem press_afterButtons (lv : Duo Level) (s : State) (b : Idx) :
    press (afterButtons lv s) b = (buttonStep s.cfg (pressed (lv.get b)) (press s b)).1 := by
  cases b with
  | zero => rw [afterButtons, press_stepButton_other (by decide), press_stepButton_same]; rfl
  | one => rw [afterButtons, press_stepButton_same, stepButton_cfg, press_stepButton_other (by decide)]; rfl

theorem evt_afterButtons (lv : Duo Level) (s : State) (b : Idx) :
    (afterButtons lv s).evt.get b
      = latched (s.evt.get b) (buttonStep s.cfg (pressed (lv.get b)) (press s b)).2 := by
  cases b with
  | zero => rw [afterButtons, evt_stepButton_other (by decide), evt_stepButton_same]; rfl
  | one =>
    rw [afterButtons, evt_stepButton_same, stepButton_cfg, press_stepButton_other (by decide),
      evt_stepButton_other (by decide)]
    rfl

@[simp] theorem afterButtons_cfg (lv : Duo Level) (s : State) : (afterButtons lv s).cfg = s.cfg := by
  simp [afterButtons]

@[simp] theorem afterButtons_resetReq (lv : Duo Level) (s : State) : (afterButtons lv s).resetReq = s.resetReq := by
  simp [afterButtons]

theorem buttonStep_edge_pressed {cfg : Config} (h : cfg.policy = .edge) (p : Press) :
    buttonStep cfg true p = edgePressed p := by simp only [buttonStep, h]

theorem buttonStep_edge_released {cfg : Config} (h : cfg.policy = .edge) (p : Press) :
    buttonStep cfg false p = edgeReleased cfg p := by simp only [buttonStep, h]

theorem buttonStep_hold_pressed {cfg : Config} (h : cfg.policy = .hold) (p : Press) :
    buttonStep cfg true p = holdPressed cfg p := by simp only [buttonStep, h]

theorem buttonStep_released (cfg : Config) (p : Press) : (buttonStep cfg false p).1 = ⟨0, false⟩ := by
  unfold buttonStep
  cases cfg.policy <;> rfl

theorem buttonStep_pressed_voided (cfg : Config) (p : Press) : (buttonStep cfg true p).1.voided = p.voided := by
  unfold buttonStep
  cases cfg.policy with
  | edge =>
    simp only [edgePressed]
    split <;> rfl
  | hold =>
    simp only [holdPressed]
    split
    · rfl
    · split <;> rfl

/-- A voided press is no event, pressed or released, under either policy (R204). -/
theorem buttonStep_event_of_voided (cfg : Config) (isPressed : Bool) {p : Press} (h : p.voided = true) :
    (buttonStep cfg isPressed p).2 = .none := by
  unfold buttonStep
  cases cfg.policy with
  | edge =>
    cases isPressed with
    | true => rfl
    | false => simp [edgeReleased, edgeEvent, h]
  | hold =>
    cases isPressed with
    | true => simp [holdPressed, clickUnless, h, apply_ite Prod.snd]
    | false => rfl

/-! ### The gesture (R202) and the void flag (R204) -/

theorem gestureFires_iff (s : State) :
    gestureFires s = true ↔ s.cfg.debounce ≤ (s.dur.get .zero).toNat ∧ s.cfg.debounce ≤ (s.dur.get .one).toNat
      ∧ ¬ (s.voided.get .zero = true ∧ s.voided.get .one = true) := by
  simp only [gestureFires, Bool.and_eq_true, decide_eq_true_eq, and_assoc, Bool.not_eq_true', Duo.get_zero,
    Duo.get_one, ← Bool.not_eq_true]

/-- Settles O40: the condition of the row is the Boolean it tests. -/
theorem gestureVoidsBothPresses : Obligations.GestureVoidsBothPresses := fun s =>
  congrArg _ (if_congr (gestureFires_iff s) rfl rfl)

theorem afterTick_of_not_fires {lv : Duo Level} {s : State} (h : gestureFires (afterButtons lv s) = false) :
    afterTick lv s = wake (afterButtons lv s) := by
  simp [afterTick, applyGesture, h]

/-- A button sampled released in this TICK blocks the gesture. -/
theorem gesture_blocked_of_released {lv : Duo Level} {s : State} {c : Idx} (hc : lv.get c = .high)
    (hdebounce : 1 ≤ s.cfg.debounce) : gestureFires (afterButtons lv s) = false := by
  have hpress : press (afterButtons lv s) c = ⟨0, false⟩ := by
    rw [press_afterButtons, hc, pressed_high, buttonStep_released]
  have hdur : ((afterButtons lv s).dur.get c).toNat = 0 := congrArg (fun p => p.dur.toNat) hpress
  rw [← Bool.not_eq_true, gestureFires_iff, afterButtons_cfg]
  rintro ⟨hzero, hone, -⟩
  cases c <;> omega

section Released

variable {lv : Duo Level} {s : State} {c : Idx} (hc : lv.get c = .high) (hdebounce : 1 ≤ s.cfg.debounce)
include hc hdebounce

/-- While one button is released, a TICK does to each button's press what ButtonStep does. -/
theorem press_afterTick_of_released (b : Idx) :
    press (afterTick lv s) b = (buttonStep s.cfg (pressed (lv.get b)) (press s b)).1 := by
  rw [afterTick_of_not_fires (gesture_blocked_of_released hc hdebounce), ← press_afterButtons]
  simp only [press, wake_dur, wake_voided]

theorem evt_afterTick_of_released (b : Idx) :
    (afterTick lv s).evt.get b
      = latched (s.evt.get b) (buttonStep s.cfg (pressed (lv.get b)) (press s b)).2 := by
  rw [afterTick_of_not_fires (gesture_blocked_of_released hc hdebounce), wake_evt, evt_afterButtons]

end Released

/-- Settles O42: ButtonStep answers no event for a voided press, so its latch changes by the gesture only, and the
gesture does not fire in a TICK that samples a button released. -/
theorem voidedPressIsSilent : Obligations.VoidedPressIsSilent := by
  intro s t b b0 b1 hvoided h
  rw [exec_tick] at h
  cases h
  constructor
  · have hkept : (afterButtons ⟨b0, b1⟩ s).evt.get b = s.evt.get b := by
      rw [evt_afterButtons, buttonStep_event_of_voided _ _ hvoided, latched_none]
    rw [afterTick, wake_evt, applyGesture_evt]
    split
    · right; cases b <;> rfl
    · exact .inl hkept
  · intro hreleased hdebounce
    have hpress : press (afterTick ⟨b0, b1⟩ s) b = ⟨0, false⟩ := by
      rw [press_afterTick_of_released hreleased hdebounce, hreleased, pressed_high, buttonStep_released]
    exact congrArg Press.voided hpress

/-! ### Runs of TICKs with constant levels (30_encoding.md R108) -/

theorem runAll_ticks (lv : Duo Level) (n : Nat) (s : State) :
    runAll (ticks n lv.at0 lv.at1) s = .next ((afterTick lv)^[n] s) := by
  induction n generalizing s with
  | zero => rfl
  | succ n ih =>
    rw [ticks, List.replicate_succ, runAll, exec_tick]
    exact ih (afterTick lv s)

@[simp] theorem iterate_afterTick_cfg (lv : Duo Level) (n : Nat) (s : State) :
    ((afterTick lv)^[n] s).cfg = s.cfg := by
  induction n with
  | zero => rfl
  | succ n ih => rw [Function.iterate_succ_apply', afterTick_cfg, ih]

/-- With both presses voided and both buttons pressed the gesture does not fire again. -/
theorem afterTick_of_both_voided {s : State} (h : s.voided = ⟨true, true⟩) :
    (afterTick ⟨.low, .low⟩ s).voided = ⟨true, true⟩ ∧ (afterTick ⟨.low, .low⟩ s).resetReq = s.resetReq := by
  have hkept (b : Idx) : (afterButtons ⟨.low, .low⟩ s).voided.get b = true := by
    have hlow : (Duo.mk Level.low Level.low).get b = .low := by cases b <;> rfl
    calc (afterButtons ⟨.low, .low⟩ s).voided.get b
        = (buttonStep s.cfg (pressed ((Duo.mk Level.low Level.low).get b)) (press s b)).1.voided :=
          congrArg Press.voided (press_afterButtons _ s b)
      _ = s.voided.get b := by rw [hlow, pressed_low, buttonStep_pressed_voided, press]
      _ = true := by rw [h]; cases b <;> rfl
  have hfires : gestureFires (afterButtons ⟨.low, .low⟩ s) = false := by
    rw [← Bool.not_eq_true, gestureFires_iff]
    exact fun ⟨_, _, hnot⟩ => hnot ⟨hkept .zero, hkept .one⟩
  rw [afterTick_of_not_fires hfires, wake_voided, wake_resetReq, afterButtons_resetReq]
  exact ⟨congrArg₂ Duo.mk (hkept .zero) (hkept .one), rfl⟩

/-- Settles O41, by induction on the number of TICKs. -/
theorem gestureFiresOncePerHold : Obligations.GestureFiresOncePerHold := by
  intro s n hvoided hreset
  refine ⟨_, runAll_ticks ⟨.low, .low⟩ n s, ?_⟩
  induction n with
  | zero => exact ⟨hreset, hvoided⟩
  | succ n ih =>
    obtain ⟨hreset', hvoided'⟩ := ih
    obtain ⟨hv, hr⟩ := afterTick_of_both_voided hvoided'
    rw [Function.iterate_succ_apply']
    exact ⟨hr.trans hreset', hv⟩

/-! ### An isolated press: button b pressed, the other released (R206) -/

/-- The levels of an isolated press of button b. -/
def isolated (b : Idx) : Duo Level := (Duo.mk .high .high).set b .low

theorem isolated_get (b : Idx) : (isolated b).get b = .low := Duo.get_set_same _ b _

theorem exists_isolated_get_high (b : Idx) : ∃ c, (isolated b).get c = .high := by
  cases b with
  | zero => exact ⟨.one, rfl⟩
  | one => exact ⟨.zero, rfl⟩

theorem press_afterTick_isolated {s : State} (b : Idx) (hdebounce : 1 ≤ s.cfg.debounce) :
    press (afterTick (isolated b) s) b = (buttonStep s.cfg true (press s b)).1 := by
  obtain ⟨c, hc⟩ := exists_isolated_get_high b
  rw [press_afterTick_of_released hc hdebounce, isolated_get, pressed_low]

theorem evt_afterTick_isolated {s : State} (b : Idx) (hdebounce : 1 ≤ s.cfg.debounce) :
    (afterTick (isolated b) s).evt.get b = latched (s.evt.get b) (buttonStep s.cfg true (press s b)).2 := by
  obtain ⟨c, hc⟩ := exists_isolated_get_high b
  rw [evt_afterTick_of_released hc hdebounce, isolated_get, pressed_low]

/-- Edge policy: n samples of an isolated press count up and are no event (R196, R198). -/
theorem edge_isolated {s : State} {b : Idx} (hdebounce : 1 ≤ s.cfg.debounce) (hpol : s.cfg.policy = .edge)
    (hpress : press s b = ⟨0, false⟩) (hevt : s.evt.get b = .none) (n : Nat) :
    press ((afterTick (isolated b))^[n] s) b = ⟨BitVec.ofNat 16 (min n 65535), false⟩
      ∧ ((afterTick (isolated b))^[n] s).evt.get b = .none := by
  induction n with
  | zero => exact ⟨hpress, hevt⟩
  | succ n ih =>
    obtain ⟨hp, he⟩ := ih
    have hstep : buttonStep s.cfg true (press ((afterTick (isolated b))^[n] s) b)
        = (⟨BitVec.ofNat 16 (min (n + 1) 65535), false⟩, .none) := by
      have hcount : min ((BitVec.ofNat 16 (min n 65535)).toNat + 1) 65535 = min (n + 1) 65535 := by
        rw [BitVec.toNat_ofNat]; omega
      rw [hp, buttonStep_edge_pressed hpol, edgePressed_eq, hcount]
    rw [Function.iterate_succ_apply', press_afterTick_isolated b (by simpa using hdebounce),
      evt_afterTick_isolated b (by simpa using hdebounce), iterate_afterTick_cfg, hstep]
    exact ⟨rfl, he⟩

/-- The event of a release is that of the samples counted, which saturate above LONG_PRESS (R197, R206). -/
theorem edgeEvent_of_samples {cfg : Config} (hok : cfg.ok = true) {n : Nat} (hn : 1 ≤ n) :
    edgeEvent cfg ⟨BitVec.ofNat 16 (min n 65535), false⟩ =
      if n < cfg.debounce then .none else if n < cfg.longPress then .click else .longPress := by
  obtain ⟨-, -, hlong, hmax, -⟩ := cfg.ok_iff.mp hok
  unfold Config.durMax at hmax
  have hcount : (BitVec.ofNat 16 (min n 65535)).toNat = min n 65535 := by rw [BitVec.toNat_ofNat]; omega
  rw [edgeEvent_eq, hcount, if_neg (by simp; omega)]
  by_cases hbounce : n < cfg.debounce
  · rw [if_pos hbounce, if_neg (by omega), if_neg (by omega)]
  · by_cases hclick : n < cfg.longPress
    · rw [if_neg hbounce, if_pos hclick, if_neg (by omega), if_pos (by omega)]
    · rw [if_neg hbounce, if_neg hclick, if_pos (by omega)]

/-- Settles O43: the press counts up to its release, whose event is that of the count. -/
theorem edgePressSummary : Obligations.EdgePressSummary := by
  intro s b n hok hpol hdur hvoided hevt hn
  obtain ⟨-, hdebounce, -⟩ := s.cfg.ok_iff.mp hok
  obtain ⟨hpress, hnone⟩ := edge_isolated hdebounce hpol (congrArg₂ Press.mk hdur hvoided) hevt n
  have hhigh : (Duo.mk Level.high Level.high).get b = .high := by cases b <;> rfl
  have hdebounce' : 1 ≤ ((afterTick (isolated b))^[n] s).cfg.debounce := by simpa using hdebounce
  refine ⟨_, _, runAll_ticks (isolated b) n s, hnone, ?_, exec_tick .high .high _, ?_, ?_⟩
  · calc (press ((afterTick (isolated b))^[n] s) b).dur.toNat
        = (BitVec.ofNat 16 (min n 65535)).toNat := by rw [hpress]
      _ = min n 65535 := by rw [BitVec.toNat_ofNat]; omega
  · have hreleased := press_afterTick_of_released hhigh hdebounce' b
    rw [hhigh, pressed_high, buttonStep_released] at hreleased
    exact congrArg Press.dur hreleased
  · rw [evt_afterTick_of_released hhigh hdebounce', hhigh, pressed_high, iterate_afterTick_cfg, hnone, hpress,
      buttonStep_edge_released hpol, edgeReleased, none_latched]
    exact edgeEvent_of_samples hok hn

/-- c is the Hold counter after a press of n samples, of which k folded it back (R200). -/
structure HoldCount (cfg : Config) (n k c : Nat) : Prop where
  samples : n = c + k * cfg.repeatInterval
  bound : c < cfg.holdThreshold + cfg.repeatInterval
  threshold : 1 ≤ k → cfg.holdThreshold ≤ c

namespace HoldCount

variable {cfg : Config} {n k c : Nat}

theorem zero (hok : cfg.ok = true) : HoldCount cfg 0 0 0 := by
  obtain ⟨-, -, -, -, -, hrepeat, -⟩ := cfg.ok_iff.mp hok
  exact ⟨by simp, Nat.add_pos_right _ hrepeat, nofun⟩

theorem succ (h : HoldCount cfg n k c) (hc : c + 1 ≠ cfg.holdThreshold + cfg.repeatInterval) :
    HoldCount cfg (n + 1) k (c + 1) := by
  obtain ⟨hn, hbound, hk⟩ := h
  exact ⟨by omega, by omega, fun h1 => (hk h1).trans (Nat.le_succ c)⟩

theorem fold (h : HoldCount cfg n k c) (hok : cfg.ok = true)
    (hc : c + 1 = cfg.holdThreshold + cfg.repeatInterval) :
    HoldCount cfg (n + 1) (k + 1) cfg.holdThreshold := by
  obtain ⟨-, -, -, -, -, hrepeat, -⟩ := cfg.ok_iff.mp hok
  refine ⟨?_, by omega, fun _ => le_rfl⟩
  rw [h.samples, Nat.succ_mul]
  omega

/-- The counter reaches DEBOUNCE or its bound exactly at the samples of the schedule: before the first fold-back it is
the sample's number, from then on it lies less than REPEAT_INTERVAL above HOLD_THRESHOLD. -/
theorem click_iff (h : HoldCount cfg n k c) (hok : cfg.ok = true) :
    (c + 1 = cfg.debounce ∨ c + 1 = cfg.holdThreshold + cfg.repeatInterval) ↔ holdClickAt cfg (n + 1) := by
  obtain ⟨-, -, -, -, hthreshold, hrepeat, -⟩ := cfg.ok_iff.mp hok
  obtain ⟨rfl, hbound, hk⟩ := h
  constructor
  · rintro (hc | hc)
    · have hk0 : k = 0 := by
        by_contra hne
        have := hk (by omega)
        omega
      left
      rw [hk0, Nat.zero_mul]
      exact hc
    · refine .inr ⟨k + 1, by omega, ?_⟩
      rw [Nat.succ_mul]
      omega
  · rintro (hn | ⟨j, hj, hn⟩)
    · have hk0 : k = 0 := by
        by_contra hne
        have := hk (by omega)
        omega
      left
      rw [hk0, Nat.zero_mul] at hn
      exact hn
    · have hkj : k < j := by
        by_contra hle
        have hkeep := hk (by omega)
        have hmul := Nat.mul_le_mul_right cfg.repeatInterval (not_lt.mp hle)
        omega
      have hmul := Nat.mul_le_mul_right cfg.repeatInterval (Nat.succ_le_of_lt hkj)
      rw [Nat.succ_mul] at hmul
      right
      omega

end HoldCount

/-- Hold policy: one more sample of an unvoided press moves the counter on, and is a Click by its value (R200). -/
theorem hold_sample {cfg : Config} (hok : cfg.ok = true) {n k c : Nat} (h : HoldCount cfg n k c) :
    (∃ k' c', (holdPressed cfg ⟨BitVec.ofNat 16 c, false⟩).1 = ⟨BitVec.ofNat 16 c', false⟩
        ∧ HoldCount cfg (n + 1) k' c')
      ∧ ((holdPressed cfg ⟨BitVec.ofNat 16 c, false⟩).2 = .click ↔ holdClickAt cfg (n + 1)) := by
  obtain ⟨-, -, -, -, hthreshold, hrepeat, hmax, -⟩ := cfg.ok_iff.mp hok
  unfold Config.durMax at hmax
  have hbound := h.bound
  have hc : (BitVec.ofNat 16 c).toNat = c := by rw [BitVec.toNat_ofNat]; exact Nat.mod_eq_of_lt (by omega)
  rw [holdPressed_eq false hok (by omega), hc, ← h.click_iff hok]
  by_cases hd : c + 1 = cfg.debounce
  · rw [if_pos hd]
    exact ⟨⟨k, c + 1, rfl, h.succ (by omega)⟩, by simp [hd, clickUnless]⟩
  · by_cases hf : c + 1 = cfg.holdThreshold + cfg.repeatInterval
    · rw [if_neg hd, if_pos hf]
      exact ⟨⟨k + 1, _, rfl, h.fold hok hf⟩, by simp [hf, clickUnless]⟩
    · rw [if_neg hd, if_neg hf]
      exact ⟨⟨k, c + 1, rfl, h.succ hf⟩, by simp [hd, hf]⟩

/-- Hold policy: the press registers after n samples of an isolated press (R200). -/
theorem hold_isolated {s : State} {b : Idx} (hok : s.cfg.ok = true) (hpol : s.cfg.policy = .hold)
    (hpress : press s b = ⟨0, false⟩) (n : Nat) :
    ∃ k c, press ((afterTick (isolated b))^[n] s) b = ⟨BitVec.ofNat 16 c, false⟩ ∧ HoldCount s.cfg n k c := by
  obtain ⟨-, hdebounce, -⟩ := s.cfg.ok_iff.mp hok
  induction n with
  | zero => exact ⟨0, 0, hpress, .zero hok⟩
  | succ n ih =>
    obtain ⟨k, c, hp, hcount⟩ := ih
    rw [Function.iterate_succ_apply', press_afterTick_isolated b (by simpa using hdebounce), iterate_afterTick_cfg, hp,
      buttonStep_hold_pressed hpol]
    exact (hold_sample hok hcount).1

/-- Hold policy: what the next sample of an isolated press does when its latch is clear. -/
theorem hold_isolated_next {u : State} {b : Idx} {n k c : Nat} (hok : u.cfg.ok = true) (hpol : u.cfg.policy = .hold)
    (hevt : u.evt.get b = .none) (hpress : press u b = ⟨BitVec.ofNat 16 c, false⟩) (hcount : HoldCount u.cfg n k c) :
    ((afterTick (isolated b) u).evt.get b = .click ↔ holdClickAt u.cfg (n + 1))
      ∧ (afterTick (isolated b) u).evt.get b ≠ .longPress
      ∧ ((afterTick (isolated b) u).dur.get b).toNat < u.cfg.holdThreshold + u.cfg.repeatInterval := by
  obtain ⟨-, hdebounce, -⟩ := u.cfg.ok_iff.mp hok
  obtain ⟨⟨k', c', hnext, hcount'⟩, hclick⟩ := hold_sample hok hcount
  have hevent : (afterTick (isolated b) u).evt.get b = (buttonStep u.cfg true (press u b)).2 := by
    rw [evt_afterTick_isolated b hdebounce, hevt, none_latched]
  have hcounter : press (afterTick (isolated b) u) b = ⟨BitVec.ofNat 16 c', false⟩ := by
    rw [press_afterTick_isolated b hdebounce, hpress, buttonStep_hold_pressed hpol, hnext]
  refine ⟨?_, ?_, ?_⟩
  · rw [hevent, hpress, buttonStep_hold_pressed hpol]
    exact hclick
  · rw [hevent]
    exact buttonStep_event_of_hold hpol true _
  · calc (press (afterTick (isolated b) u) b).dur.toNat
        = (BitVec.ofNat 16 c').toNat := by rw [hcounter]
      _ ≤ c' := by rw [BitVec.toNat_ofNat]; exact Nat.mod_le _ _
      _ < _ := hcount'.bound

/-- Settles O44: the counter after n samples decides the event of the next one. -/
theorem holdClickSchedule : Obligations.HoldClickSchedule := by
  intro s b n hok hpol hdur hvoided
  obtain ⟨k, c, hpress, hcount⟩ := hold_isolated hok hpol (congrArg₂ Press.mk hdur hvoided) n
  have hcfg : ((afterTick (isolated b))^[n] s).cfg = s.cfg := iterate_afterTick_cfg (isolated b) n s
  rw [← hcfg] at hok hpol hcount ⊢
  exact ⟨_, _, runAll_ticks (isolated b) n s, exec_tick _ _ _,
    hold_isolated_next (u := { (afterTick (isolated b))^[n] s with evt := ⟨.none, .none⟩ }) hok hpol
      (by cases b <;> rfl) hpress hcount⟩

end Machine

end Sys2Proof
end

section
/-! PROOFS. Statements of 43_scoreboard.md: the cycle of the main loop (R230, R247), POLL (R231), UPDATE and its
transitions (R232 to R240), the frame that RENDER writes (R241 to R245), the transmit steps (R246), and the rule that an
active side is left through Idle only (R248, R249). -/

namespace Sys2Proof.Machine

/-! ### UPDATE's transitions run by themselves (R233 to R239) -/

/-- Settles O47: the row is the transition. -/
theorem resetRowRestoresScores : Obligations.ResetRowRestoresScores := fun _ => rfl

theorem exec_activate_of_idle {s : State} (h : s.run = .idle) (j : Idx) :
    exec (.activate j) s = .next (activate j s) := by
  rw [exec, execActivate, h]

theorem exec_activate_of_active {s : State} (h : s.run ≠ .idle) (j : Idx) :
    exec (.activate j) s = .refused .notEnabled := by
  rw [exec, execActivate]
  split
  · exact absurd ‹_› h
  · rfl
  · rfl

/-- Settles O48: the row tests the run state, and Idle is the one that enables it. -/
theorem activationKeepsScores : Obligations.ActivationKeepsScores := fun s j =>
  ⟨fun hidle => (exec_activate_of_idle hidle j).trans (by cases j <;> rfl), fun h => exec_activate_of_active h j⟩

theorem editOnly_of_idle {s : State} (h : s.run = .idle) (j : Idx) (e : ButtonEvent) :
    editOnly j e s = .refused .notEnabled := by
  rw [editOnly, (side_eq_none_iff s.run).mpr h]

theorem editOnly_of_side {s : State} {sd : Idx} (h : s.run.side = some sd) (j : Idx) (e : ButtonEvent) :
    editOnly j e s = .next (editActive j e sd s) := by
  rw [editOnly, h]

theorem longPressEdit_of_edge {s : State} (h : s.cfg.policy = .edge) (j : Idx) :
    longPressEdit j s = editOnly j .longPress s := by
  rw [longPressEdit, h]

theorem longPressEdit_of_hold {s : State} (h : s.cfg.policy = .hold) (j : Idx) :
    longPressEdit j s = .refused .policyNotSelected := by
  rw [longPressEdit, h]

theorem editActive_score_get (j : Idx) (e : ButtonEvent) (sd : Idx) (s : State) :
    (editActive j e sd s).score.get sd = editScore s.cfg j e (s.score.get sd) := by
  simp

/-- An edit writes the active side's score and the time only. -/
theorem editActive_changes (j : Idx) (e : ButtonEvent) (sd : Idx) (s : State) :
    editActive j e sd s = { s with
      score := s.score.set sd ((editActive j e sd s).score.get sd)
      stateTime := s.snapNow } := by
  rw [editActive_score_get]
  rfl

/-- Settles O49: each row is `editOnly` with its button and event, and the Clicks are `scoreDec` and `scoreInc`. -/
theorem editRowsEditTheActiveSide : Obligations.EditRowsEditTheActiveSide := by
  intro s
  refine ⟨fun sd hrun => ?_, fun hidle => ?_, fun hhold => ?_⟩
  · have hside : s.run.side = some sd := by rw [hrun]; cases sd <;> rfl
    refine ⟨⟨_, editOnly_of_side hside .zero .click, editActive_changes _ _ sd s, ?_⟩,
      ⟨_, editOnly_of_side hside .one .click, editActive_changes _ _ sd s, ?_⟩, fun hedge => ⟨?_, ?_⟩⟩
    · rw [editActive_score_get, editScore, scoreDec_val]
      omega
    · rw [editActive_score_get, editScore, scoreInc_val]
    · exact (longPressEdit_of_edge hedge .zero).trans (editOnly_of_side hside .zero .longPress)
    · exact (longPressEdit_of_edge hedge .one).trans (editOnly_of_side hside .one .longPress)
  · have hedit := editOnly_of_idle hidle
    exact ⟨hedit .zero .click, hedit .one .click, fun hedge =>
      ⟨(longPressEdit_of_edge hedge .zero).trans (hedit _ _), (longPressEdit_of_edge hedge .one).trans (hedit _ _)⟩⟩
  · exact ⟨longPressEdit_of_hold hhold .zero, longPressEdit_of_hold hhold .one⟩

/-! ### The timeout (R240) -/

/-- The elapsed time of an active side, the tick difference modulo 2^TICK_BITS, has reached STATE_DURATION. -/
def State.TimedOut (s : State) : Prop :=
  (s.cfg.stateDuration : Int) ≤ ((s.snapNow : Int) - (s.stateTime : Int)) % (2 ^ s.cfg.tickBits : Int)

theorem timeoutDue_iff (s : State) : timeoutDue s = true ↔ s.run ≠ .idle ∧ s.TimedOut := by
  rw [timeoutDue, Bool.and_eq_true, decide_eq_true_iff, decide_eq_true_iff, State.TimedOut, ← tickSub_eq_emod,
    Int.ofNat_le]

/-- The timeout fires, or the state stays as it is. -/
theorem applyTimeout_cases (s : State) :
    ((s.run ≠ .idle ∧ s.TimedOut) ∧ applyTimeout s = { s with run := .idle })
      ∨ (¬ (s.run ≠ .idle ∧ s.TimedOut) ∧ applyTimeout s = s) := by
  rw [← timeoutDue_iff]
  by_cases h : timeoutDue s = true
  · exact .inl ⟨h, if_pos h⟩
  · exact .inr ⟨h, if_neg h⟩

/-- Settles O50: the model's wrap-safe subtraction is the integers' modulo 2^TICK_BITS. -/
theorem timeoutReturnsToIdle : Obligations.TimeoutReturnsToIdle := by
  intro s
  rw [exec, execTimeout]
  rcases applyTimeout_cases s with ⟨hdue, htimeout⟩ | ⟨hdue, htimeout⟩
  · exact congrArg _ (htimeout.trans (if_pos hdue).symm)
  · exact congrArg _ (htimeout.trans (if_neg hdue).symm)

/-! ### UPDATE as its sub-steps (R232) -/

/-- The state after UPDATE's first sub-step (`updateBody_eq`). -/
def afterReset (s : State) : State := if s.snapReset = true then applyReset s else s

theorem updateBody_eq (s : State) :
    updateBody s = applyTimeout (handleSnap .one (handleSnap .zero (afterReset s))) := rfl

theorem exec_update {s : State} (h : s.mphase = .update) :
    exec .update s = .next { updateBody s with mphase := .render } := inPhase_pos h

theorem runOption_applyReset (s : State) :
    runOption (if s.snapReset = true then some .applyReset else none) s = .next (afterReset s) := by
  unfold afterReset
  split <;> rfl

/-- UPDATE's transitions read the configuration and the snapshot and write neither. -/
theorem UpdateWrites.reads {s t : State} (h : UpdateWrites s t) :
    t.cfg = s.cfg ∧ t.snapEvt = s.snapEvt ∧ t.snapNow = s.snapNow := by
  obtain ⟨_, _, _, -, rfl⟩ := h
  exact ⟨rfl, rfl, rfl⟩

theorem updateWrites_afterReset (s : State) : UpdateWrites s (afterReset s) := by
  unfold afterReset
  split
  · exact updateWrites_applyReset s
  · exact .refl s

theorem handleEvent_of_idle {s : State} (h : s.run = .idle) (j : Idx) (e : ButtonEvent) :
    handleEvent j e s = activate j s := by
  rw [handleEvent, (side_eq_none_iff s.run).mpr h]

theorem handleEvent_of_side {s : State} {sd : Idx} (h : s.run.side = some sd) (j : Idx) (e : ButtonEvent) :
    handleEvent j e s = editActive j e sd s := by
  rw [handleEvent, h]

theorem idle_or_active (r : RunState) : r = .idle ∨ ∃ sd, r = RunState.active sd := by
  cases r with
  | idle => exact .inl rfl
  | activeLeft => exact .inr ⟨.zero, rfl⟩
  | activeRight => exact .inr ⟨.one, rfl⟩

theorem handleSnap_of_none {s : State} {j : Idx} (h : s.snapEvt.get j = .none) : handleSnap j s = s := by
  rw [handleSnap, h]

theorem handleSnap_of_event {s : State} {j : Idx} (h : s.snapEvt.get j ≠ .none) :
    handleSnap j s = handleEvent j (s.snapEvt.get j) s := by
  cases he : s.snapEvt.get j with
  | none => exact absurd he h
  | click | longPress => rw [handleSnap, he]

theorem eventRow_none (run : RunState) (j : Idx) : eventRow run j .none = none := rfl

theorem eventRow_idle (j : Idx) {e : ButtonEvent} (h : e ≠ .none) : eventRow .idle j e = some (.activate j) := by
  cases e with
  | none => exact absurd rfl h
  | click | longPress => rfl

/-- While a side is active the row of an event is the edit of the event's button. -/
theorem runOption_eventRow_active {s : State} {sd : Idx} (hrun : s.run = RunState.active sd) (j : Idx)
    {e : ButtonEvent} (he : e ≠ .none) (hpol : s.cfg.policy = .hold → e ≠ .longPress) :
    runOption (eventRow (RunState.active sd) j e) s = .next (editActive j e sd s) := by
  have hside : s.run.side = some sd := by rw [hrun, side_active]
  have hclick : runOption (eventRow (RunState.active sd) j .click) s = editOnly j .click s := by
    cases sd <;> cases j <;> rfl
  have hlong : runOption (eventRow (RunState.active sd) j .longPress) s = longPressEdit j s := by
    cases sd <;> cases j <;> rfl
  cases e with
  | none => exact absurd rfl he
  | click => exact hclick.trans (editOnly_of_side hside j .click)
  | longPress =>
    have hedge : s.cfg.policy = .edge := by
      cases hp : s.cfg.policy with
      | edge => rfl
      | hold => exact absurd rfl (hpol hp)
    exact hlong.trans ((longPressEdit_of_edge hedge j).trans (editOnly_of_side hside j .longPress))

/-- The row that handles the event of button j does what UPDATE does with it. -/
theorem runOption_eventRow {s : State} {j : Idx} (hpol : s.cfg.policy = .hold → s.snapEvt.get j ≠ .longPress) :
    runOption (eventRow s.run j (s.snapEvt.get j)) s = .next (handleSnap j s) := by
  by_cases he : s.snapEvt.get j = .none
  · rw [handleSnap_of_none he, he, eventRow_none, runOption]
  · rw [handleSnap_of_event he]
    rcases idle_or_active s.run with hrun | ⟨sd, hrun⟩
    · rw [handleEvent_of_idle hrun, hrun, eventRow_idle j he]
      exact exec_activate_of_idle hrun j
    · rw [handleEvent_of_side (by rw [hrun, side_active]), hrun]
      exact runOption_eventRow_active hrun j he hpol

/-- The state under the Edge policy. -/
def State.underEdge (s : State) : State := { s with cfg := { s.cfg with policy := .edge } }

theorem afterReset_underEdge (s : State) : afterReset s.underEdge = (afterReset s).underEdge := by
  have hsnap : s.underEdge.snapReset = s.snapReset := rfl
  simp only [afterReset, hsnap]
  split <;> rfl

theorem handleEvent_underEdge (j : Idx) (e : ButtonEvent) (s : State) :
    handleEvent j e s.underEdge = (handleEvent j e s).underEdge := by
  rcases idle_or_active s.run with hrun | ⟨sd, hrun⟩
  · rw [handleEvent_of_idle hrun]
    exact handleEvent_of_idle (s := s.underEdge) hrun j e
  · have hside : s.run.side = some sd := by rw [hrun, side_active]
    have hedit : editActive j e sd s.underEdge = (editActive j e sd s).underEdge := by
      cases j <;> cases e <;> rfl
    rw [handleEvent_of_side hside, ← hedit]
    exact handleEvent_of_side (s := s.underEdge) hside j e

theorem handleSnap_underEdge (j : Idx) (s : State) : handleSnap j s.underEdge = (handleSnap j s).underEdge := by
  by_cases he : s.snapEvt.get j = .none
  · rw [handleSnap_of_none he]
    exact handleSnap_of_none (s := s.underEdge) he
  · rw [handleSnap_of_event he, ← handleEvent_underEdge]
    exact handleSnap_of_event (s := s.underEdge) he

theorem applyTimeout_underEdge (s : State) : applyTimeout s.underEdge = (applyTimeout s).underEdge := by
  have hdue : timeoutDue s.underEdge = timeoutDue s := rfl
  simp only [applyTimeout, hdue]
  split <;> rfl

/-- UPDATE tests no policy (R232). -/
theorem updateBody_underEdge (s : State) : updateBody s.underEdge = (updateBody s).underEdge := by
  simp only [updateBody_eq, afterReset_underEdge, handleSnap_underEdge, applyTimeout_underEdge]

/-- Settles O46: each row does what UPDATE does in its place, since no sub-step writes the snapshot or the policy; and
every sub-step commutes with the change of policy. -/
theorem updateIsItsSubStepsInOrder : Obligations.UpdateIsItsSubStepsInOrder := by
  refine ⟨fun s hphase hpol => ?_, fun s hphase => ⟨_, exec_update hphase, ?_⟩⟩
  · have hkept {u : State} (hu : UpdateWrites s u) (j : Idx) :
        runOption (eventRow u.run j (s.snapEvt.get j)) u = .next (handleSnap j u) := by
      obtain ⟨hcfg, hevt, -⟩ := hu.reads
      rw [← hcfg, ← hevt] at hpol
      rw [← hevt]
      exact runOption_eventRow fun hhold => hpol hhold j
    have hreset := updateWrites_afterReset s
    exact ⟨_, _, _, _, runOption_applyReset s, hkept hreset .zero,
      hkept (hreset.trans (updateWrites_handleSnap .zero _)) .one, rfl, exec_update hphase⟩
  · have hexec : exec .update s.underEdge = .next { updateBody s.underEdge with mphase := .render } :=
      exec_update hphase
    rw [updateBody_underEdge] at hexec
    exact hexec

/-! ### An active side is left through Idle only (R248, R249) -/

theorem handleSnap_run_of_active {s : State} (h : s.run ≠ .idle) (j : Idx) : (handleSnap j s).run = s.run := by
  by_cases he : s.snapEvt.get j = .none
  · rw [handleSnap_of_none he]
  · obtain ⟨sd, hrun⟩ := (idle_or_active s.run).resolve_left h
    rw [handleSnap_of_event he, handleEvent_of_side (by rw [hrun, side_active]), editActive_run]

/-- Settles O51: the events leave an active side active, so that it is left by the timeout only, and the timeout leaves
the time it tests. -/
theorem activeSideChangesOnlyThroughIdle : Obligations.ActiveSideChangesOnlyThroughIdle := by
  intro s t hactive hreset hexec
  obtain ⟨-, rfl⟩ := inPhase_next hexec
  have hafter : afterReset s = s := if_neg (by rw [hreset]; decide)
  have hzero := handleSnap_run_of_active hactive .zero
  have hrun : (handleSnap .one (handleSnap .zero s)).run = s.run :=
    (handleSnap_run_of_active (by rwa [hzero]) .one).trans hzero
  have hwrites := (updateWrites_handleSnap .zero s).trans (updateWrites_handleSnap .one _)
  have hcfg : (handleSnap .one (handleSnap .zero s)).cfg = s.cfg := hwrites.reads.1
  rw [updateBody_eq, hafter]
  rcases applyTimeout_cases (handleSnap .one (handleSnap .zero s)) with ⟨⟨-, htime⟩, htimeout⟩ | ⟨-, htimeout⟩
  · rw [htimeout, ← hcfg]
    exact .inr ⟨rfl, htime⟩
  · rw [htimeout]
    exact .inl hrun

/-! ### RENDER (R241 to R245) -/

/-- One digit position of a side: blank in the dark half of the active side's blink, minus for the score 0, else the digit
g (`sidePair_eq`). -/
def sideGlyph (cfg : Config) (run : RunState) (snapNow : Nat) (sd : Idx) (x g : Nat) : Byte :=
  if (decide (run = RunState.active sd) && decide (cfg.blinkOn ≤ snapNow % cfg.blinkPeriod)) = true then segBlank
  else if x = 0 then segMinus
  else segRom.toList.getD g segMinus

theorem lit_eq_false_iff (cfg : Config) (snapNow : Nat) :
    lit cfg snapNow = false ↔ cfg.blinkOn ≤ snapNow % cfg.blinkPeriod := by
  rw [lit, decide_eq_false_iff_not, Nat.not_lt]

theorem sidePair_eq (cfg : Config) (run : RunState) (snapNow : Nat) (sd : Idx) (x : Fin 100) :
    sidePair cfg run snapNow sd x
      = (sideGlyph cfg run snapNow sd x.val (x.val / 10), sideGlyph cfg run snapNow sd x.val (x.val % 10)) := by
  have htens : x.val / 10 < 10 := by omega
  have hones : x.val % 10 < 10 := by omega
  simp only [sidePair, sideGlyph, lit_eq_false_iff, Bool.and_eq_true, decide_eq_true_iff, digitByte_eq_getD htens,
    digitByte_eq_getD hones]
  split
  · rfl
  · split <;> rfl

/-- Settles O52: the two bytes of each side are its tens and ones glyphs. -/
theorem renderWritesTheFrame : Obligations.RenderWritesTheFrame := by
  intro s hphase
  refine (inPhase_pos hphase).trans ?_
  rw [renderFrame, sidePair_eq, sidePair_eq]
  rfl

/-! ### The cycle of the main loop (R230, R231, R246, R247) -/

/-- Settles O45: POLL in its phase. -/
theorem pollSnapshotsAndClears : Obligations.PollSnapshotsAndClears := fun _ hphase => inPhase_pos hphase

/-- Settles O53: each step in its phase, with its command byte's value. -/
theorem transmitStepsSendTheFrame : Obligations.TransmitStepsSendTheFrame := fun s =>
  ⟨inPhase_pos, inPhase_pos, fun hphase => by rw [← ctrlByte_eq_add]; exact inPhase_pos hphase⟩

theorem exec_phaseInstr_next {s : State} {p : Phase} (h : s.mphase = p) :
    ∃ t, exec (phaseInstr p) s = .next t ∧ t.mphase = p.next := by
  cases p with
  | poll | update | render | tx1 | tx2 | tx3 => exact ⟨_, inPhase_pos h, rfl⟩
  | wait => exact ⟨s, inPhase_pos h, h⟩

theorem exec_phaseInstr_of_ne {s : State} {p : Phase} (h : s.mphase ≠ p) :
    exec (phaseInstr p) s = .refused .notEnabled := by
  cases p with
  | poll | update | render | tx1 | tx2 | tx3 | wait => exact inPhase_neg h

/-- Settles O54: the row of the present phase completes, and the row of another does not. -/
theorem mainLoopFollowsItsCycle : Obligations.MainLoopFollowsItsCycle :=
  ⟨fun _ => exec_phaseInstr_next rfl, fun _ => inPhase_pos, fun _ _ hne => exec_phaseInstr_of_ne hne.symm⟩

/-- Settles O8: of the steps of the block by itself, the queued transaction and the row of the phase are excluded, and
the TICK wakes the main context. -/
theorem waitIsLeftByATickOnly : Obligations.WaitIsLeftByATickOnly := by
  intro s hok hport hpend hwait
  rcases step_free hok hport with ⟨b0, b1, htick⟩ | ⟨hqueued, -⟩ | ⟨-, hphase, -⟩
  · refine ⟨b0, b1, _, htick, htick.trans (exec_tick b0 b1 _), ?_⟩
    rw [afterTick_changes]
    exact if_pos hwait
  · exact absurd hpend hqueued
  · exact absurd hwait hphase

end Sys2Proof.Machine
end

section
/-! PROOFS. Statement of 60_exceptions.md: who touches the link (R280; 40_wire_protocol.md R139). What a completing row
makes of the link is said once, by `exec_link_cases`. -/

namespace Sys2Proof

theorem Instr.isTransaction_of_startsFrame {i : Instr} (h : i.startsFrame = true) : i.isTransaction = true := by
  cases i with
  | sendSegments | displayRaw | displayAt | displayNumber | clear => rfl
  | _ => cases h

/-- The tick context has neither a wire row nor a row that sends transactions (40_wire_protocol.md R138). -/
theorem Instr.not_wire_of_tickContext {i : Instr} (h : i.tickContext = true) :
    i.isWirePiece = false ∧ i.isTransaction = false := by
  cases i with
  | tick | buttonEdgePressed | buttonEdgeReleased | buttonHoldPressed | buttonHoldReleased | gesture => exact ⟨rfl, rfl⟩
  | _ => cases h

namespace Machine

theorem updateBody_link (s : State) : (updateBody s).link = s.link := by
  obtain ⟨_, _, _, -, hbody⟩ := updateWrites_updateBody s
  rw [hbody]

/-- Of the main-loop rows, TX1, TX2 and TX3 send a transaction and the others leave the link. -/
theorem exec_phaseInstr_link {p : Phase} {s t : State} (h : exec (phaseInstr p) s = .next t) :
    (phaseInstr p).isTransaction = true ∨ t.link = s.link := by
  cases p with
  | tx1 | tx2 | tx3 => exact .inl rfl
  | poll | render | wait => obtain ⟨-, rfl⟩ := inPhase_next h; exact .inr rfl
  | update => obtain ⟨-, rfl⟩ := inPhase_next h; exact .inr (updateBody_link s)

/-- A row that completes sends a transaction, or is STOP, or is another wire row and keeps the peer, or leaves the
link. -/
theorem exec_link_cases {i : Instr} {s t : State} (h : exec i s = .next t) :
    i.isTransaction = true ∨ i = .stop ∨ (i.isWirePiece = true ∧ t.link.peer = s.link.peer) ∨ t.link = s.link := by
  cases exec_effect h with
  | txn => exact .inl rfl
  | frame hf => exact .inl (Instr.isTransaction_of_startsFrame hf)
  | transmitStep p _ hi =>
    subst hi
    exact (exec_phaseInstr_link h).imp_right fun hlink => .inr (.inr hlink)
  | stop => exact .inr (.inl rfl)
  | piece hi hpeer => exact .inr (.inr (.inl ⟨hi, hpeer⟩))
  | _ => exact .inr (.inr (.inr (by simp [subStepButton])))

theorem exec_link {i : Instr} {s t : State} (hpiece : i.isWirePiece = false) (htxn : i.isTransaction = false)
    (h : exec i s = .next t) : t.link = s.link := by
  rcases exec_link_cases h with hi | rfl | ⟨hi, -⟩ | hlink
  · simp [hi] at htxn
  · cases hpiece
  · simp [hi] at hpiece
  · exact hlink

theorem exec_link_peer {i : Instr} {s t : State} (hstop : i ≠ .stop) (htxn : i.isTransaction = false)
    (h : exec i s = .next t) : t.link.peer = s.link.peer := by
  rcases exec_link_cases h with hi | hi | ⟨-, hpeer⟩ | hlink
  · simp [hi] at htxn
  · exact absurd hi hstop
  · exact hpeer
  · rw [hlink]

/-- Settles O60: outside the wire rows and the transactions the link is kept, the tick context is outside them, and of
the wire rows only STOP completes a transaction at the peer. -/
theorem onlyTransactionsReachTheWire : Obligations.OnlyTransactionsReachTheWire := fun i _ _ h =>
  ⟨fun hpiece htxn => exec_link hpiece htxn h,
    fun htick =>
      have ⟨hpiece, htxn⟩ := i.not_wire_of_tickContext htick
      exec_link hpiece htxn h,
    fun hstop htxn => exec_link_peer hstop htxn h⟩

end Machine

end Sys2Proof
end

section
/-! PROOFS. Statement of 70_reset_and_hazards.md: the first iteration of the main loop after reset (R302). A trace that
leaves the bus idle is read transaction by transaction; POLL, UPDATE and RENDER of an idle block without events only
take the snapshot and build the frame. -/

namespace Sys2Proof.Machine

/-! ### The trace of transactions one after the other (R302; 40_wire_protocol.md R136, R139) -/

theorem see_lines (t : Tap) (e : WireEvent) : (t.see e).lines = t.lines.drive e := by
  simp only [Tap.see]
  split
  · split <;> rfl
  · split <;> rfl

/-- The reader's lines are the lines the events drive. -/
theorem seeAll_lines (t : Tap) (es : List WireEvent) : (t.seeAll es).lines = t.lines.driveAll es := by
  induction es generalizing t with
  | nil => rfl
  | cons e es ih => exact (ih (t.see e)).trans (congrArg (Lines.driveAll · es) (see_lines t e))

/-- START on the idle bus begins a byte, whatever bits the reader holds from the STOP before it. -/
theorem seeAll_startEvents {t : Tap} (h : t.lines = Lines.idleBus) :
    t.seeAll startEvents = ⟨⟨.low, .low, .output⟩, [], t.bytes⟩ := by
  simp [Tap.seeAll, startEvents, Tap.see, h, Lines.idleBus, Lines.drive]

theorem seeAll_txnEvents_bytes {t : Tap} (h : t.lines = Lines.idleBus) {vs : List Byte} {as : List Level}
    (hlen : as.length = vs.length) : (t.seeAll (txnEvents vs as)).bytes = t.bytes ++ vs := by
  rw [txnEvents, seeAll_append, seeAll_append, seeAll_stopEvents_bytes, seeAll_startEvents h,
    seeAll_bytesEvents hlen rfl]

/-- The trace, replayed from the idle bus, ends on it. -/
def Link.WireEndsIdle (l : Link) : Prop := Lines.idleBus.driveAll l.wire = Lines.idleBus

theorem transact_wireEndsIdle (l : Link) (vs : List Byte) : (l.transact vs).WireEndsIdle := by
  simp [Link.WireEndsIdle, transact_wire, txnEvents]

theorem readBytes_transact {l : Link} (h : l.WireEndsIdle) (vs : List Byte) :
    readBytes (l.transact vs).wire = readBytes l.wire ++ vs := by
  have hlines := (seeAll_lines ⟨Lines.idleBus, [], []⟩ l.wire).trans h
  rw [transact_wire, readBytes, seeAll_append, seeAll_txnEvents_bytes hlines (l.acks_length vs.length), readBytes]

theorem transact_wire_length (l : Link) (vs : List Byte) :
    (l.transact vs).wire.length = l.wire.length + (2 + 30 * vs.length + 4) := by
  rw [transact_wire, List.length_append, txnEvents_length (l.acks_length vs.length)]

/-- A frame is read as its seven bytes. -/
theorem readBytes_sendFrame {l : Link} (h : l.WireEndsIdle) (f : Frame) (brightness : BitVec 3) :
    readBytes (l.sendFrame f brightness).wire
      = readBytes l.wire ++ [cmdDataAutoincByte] ++ (addrByte 0 :: f.toList) ++ [ctrlByte brightness] := by
  rw [Link.sendFrame, readBytes_transact (transact_wireEndsIdle _ _), readBytes_transact (transact_wireEndsIdle _ _),
    readBytes_transact h]

theorem sendFrame_wire_length (l : Link) (f : Frame) (brightness : BitVec 3) :
    (l.sendFrame f brightness).wire.length = l.wire.length + 228 := by
  rw [Link.sendFrame, transact_wire_length, transact_wire_length, transact_wire_length]
  rfl

/-! ### POLL, UPDATE and RENDER of an idle block without events (R302) -/

/-- In Idle, with no event and no reset in the snapshot, UPDATE changes nothing: Idle has no timeout. -/
theorem updateBody_of_idle {s : State} (hidle : s.run = .idle) (hreset : s.snapReset = false)
    (hevt : s.snapEvt = ⟨.none, .none⟩) : updateBody s = s := by
  have hafter : afterReset s = s := if_neg (by rw [hreset]; decide)
  have hsnap (j : Idx) : handleSnap j s = s := handleSnap_of_none (by rw [hevt]; cases j <;> rfl)
  rw [updateBody_eq, hafter, hsnap, hsnap]
  rcases applyTimeout_cases s with ⟨⟨hactive, -⟩, -⟩ | ⟨-, htimeout⟩
  · exact absurd hidle hactive
  · exact htimeout

/-- The state after POLL (R231; `pollSnapshotsAndClears`). -/
def polled (s : State) : State :=
  { s with
    snapReset := s.resetReq
    resetReq := false
    snapEvt := s.evt
    evt := ⟨.none, .none⟩
    snapNow := s.now
    mphase := .update }

/-- The state after RENDER of an idle block (R241, R245). -/
def renderedIdle (s : State) : State :=
  { s with
    brightness := s.cfg.brightDim
    frame := renderFrame s.cfg .idle s.snapNow s.score
    mphase := .tx1 }

theorem exec_render_of_idle {s : State} (hphase : s.mphase = .render) (hidle : s.run = .idle) :
    exec .render s = .next (renderedIdle s) := by
  have hbright : brightnessOf s.cfg s.run = s.cfg.brightDim := if_pos hidle
  rw [exec, execRender, hbright, hidle]
  exact inPhase_pos hphase

theorem runAll_cons_of_next {i : Instr} {s t : State} (h : exec i s = .next t) (is : List Instr) :
    runAll (i :: is) s = runAll is t := by
  rw [runAll, h]

theorem runAll_pollUpdateRender {s : State} (hphase : s.mphase = .poll) (hidle : s.run = .idle)
    (hreq : s.resetReq = false) (hevt : s.evt = ⟨.none, .none⟩) (is : List Instr) :
    runAll (.poll :: .update :: .render :: is) s = runAll is (renderedIdle (polled s)) := by
  have hupdate := exec_update (s := polled s) rfl
  rw [updateBody_of_idle (s := polled s) hidle hreq hevt] at hupdate
  have hrender := exec_render_of_idle (s := { polled s with mphase := .render }) rfl hidle
  calc runAll (.poll :: .update :: .render :: is) s
    _ = runAll (.update :: .render :: is) (polled s) := runAll_cons_of_next (pollSnapshotsAndClears s hphase) _
    _ = runAll (.render :: is) { polled s with mphase := .render } := runAll_cons_of_next hupdate _
    _ = runAll is (renderedIdle (polled s)) := runAll_cons_of_next hrender is

/-! ### The first iteration (R302) -/

/-- In Idle the blink phase is irrelevant: both sides are lit. -/
theorem sidePair_idle (cfg : Config) (snapNow : Nat) (sd : Idx) (x : Fin 100) :
    sidePair cfg .idle snapNow sd x
      = if x.val = 0 then (segMinus, segMinus) else (digitByte (x.val / 10), digitByte (x.val % 10)) := by
  have hside : RunState.idle ≠ RunState.active sd := by cases sd <;> decide
  exact if_neg fun h => hside h.1

/-- The frame "20" dot "20". -/
theorem renderFrame_twenty (snapNow : Nat) :
    renderFrame Config.default .idle snapNow ⟨20, 20⟩ = ⟨0x5B, 0xBF, 0x5B, 0x3F⟩ := by
  rw [renderFrame, sidePair_idle, sidePair_idle]
  rfl

/-- Settles O56: POLL, UPDATE and RENDER build the frame of the scores 20 and 20, and the trace is the three
transactions that send it. -/
theorem firstIterationShowsTwenty : Obligations.FirstIterationShowsTwenty := by
  intro now stateTime snapNow snapReset snapEvt frame peer
  refine ⟨_, (runAll_pollUpdateRender rfl rfl rfl rfl _).trans (runAll_tx rfl), ?_, ?_, rfl, rfl, rfl⟩
  · have hwire : (Link.reset peer).WireEndsIdle := rfl
    calc readBytes ((Link.reset peer).sendFrame (renderFrame Config.default .idle now ⟨20, 20⟩) 0).wire
      _ = [] ++ [cmdDataAutoincByte] ++ (addrByte 0 :: (renderFrame Config.default .idle now ⟨20, 20⟩).toList)
            ++ [ctrlByte 0] := readBytes_sendFrame hwire _ _
      _ = [0x40, 0xC0, 0x5B, 0xBF, 0x5B, 0x3F, 0x88] := by rw [renderFrame_twenty]; rfl
  · exact sendFrame_wire_length (Link.reset peer) _ _

end Sys2Proof.Machine
end
